-- ==== Sys2Proof/Word.lean ====
section
/-! DEFINITION. The word size `W`, the word count `N`, the W-bit word and the state word file (00_scope.md R6, R9, R10;
10_state.md R15). The operators of R10 are `BitVec`'s own: `^^^`, `&&&`, `|||`, `>>>` (fills with zeros), `<<<` (truncated to
W bits), `*` and `+` (modulo `2^W`). -/

namespace Sys2Proof

/-- The word size `W` of R6: 32 or 64, no other value. -/
inductive WordSize where
  | w32
  | w64
  deriving DecidableEq, Repr

/-- `W` as a number of bits (R6). -/
@[reducible] def WordSize.bits : WordSize → Nat
  | .w32 => 32
  | .w64 => 64

/-- `N`, the word count that goes with `W` (R6): 624 words of 32 bits, or 312 words of 64 bits. -/
@[reducible] def WordSize.wordCount : WordSize → Nat
  | .w32 => 624
  | .w64 => 312

/-- There is at least one state word, so an index reduced `mod N` names one. -/
theorem WordSize.wordCount_pos (ws : WordSize) : 0 < ws.wordCount := by
  cases ws <;> decide

/-- `N` is at most 624, so it fits in the 10 bits of the cursor (00_scope.md R8). -/
theorem WordSize.wordCount_le (ws : WordSize) : ws.wordCount ≤ 624 := by
  cases ws <;> decide

/-- `N` is even. -/
theorem WordSize.wordCount_even (ws : WordSize) : ws.wordCount % 2 = 0 := by
  cases ws <;> decide

/-- A W-bit word: an unsigned integer in `[0, 2^W)` (R9). -/
abbrev Word (ws : WordSize) := BitVec ws.bits

/-- The state word file `MT[0..N-1]`: N words of W bits (R15). -/
abbrev WordFile (ws : WordSize) := Vector (Word ws) ws.wordCount

/-- A 64-bit value on the port: OPERAND, DATA, or one TimeSource draw (30_encoding.md R42; 60_exceptions.md R73). -/
abbrev Data := BitVec 64

/-- The 32-bit command word CMD (R42, R43). -/
abbrev CommandWord := BitVec 32

/-- The cursor field, `CW = 10` bits (00_scope.md R8; 10_state.md R17). -/
abbrev Cursor := BitVec 10

end Sys2Proof
end

