-- ==== Sys2Proof/Syntax.lean ====
section
/-! DEFINITION. The commands of the opcode table, one constructor per row (30_encoding.md R45), and the lines of a command
program (R48, R49). -/

namespace Sys2Proof

/-- The four commands. No command word holds an immediate or a field (R44, `"fields": []` in opcode_table.json), so no
constructor has an argument: OPERAND is part of the request on the port, not of the command word. -/
inductive Instr where
  /-- `0x00000001`, 40_seeding.md R53. -/
  | seed
  /-- `0x00000002`, 40_seeding.md R54. -/
  | seedTime
  /-- `0x00000003`, 41_generation.md R57. -/
  | next
  /-- `0x00000004`, 41_generation.md R58. -/
  | status
  deriving DecidableEq, Repr

/-- One line of a command program, as R48 and R49 write it. Literals are kept as written, as naturals; `Line.wf` says which
are allowed. -/
inductive Line where
  /-- `SEED <imm64>`. -/
  | seed (imm : Nat)
  /-- `SEED_TIME`. -/
  | seedTime
  /-- `NEXT`. -/
  | next
  /-- `NEXT ×k`. -/
  | nextTimes (k : Nat)
  /-- `STATUS`. -/
  | status
  /-- `.word <imm32>`. -/
  | word (imm : Nat)
  /-- `NEW <imm64>`. -/
  | newSeed (imm : Nat)
  /-- `NEW`. -/
  | newTime
  /-- `RESEED <imm64>`. -/
  | reseed (imm : Nat)
  /-- `NEXT_U64`. -/
  | nextU64
  deriving DecidableEq, Repr

end Sys2Proof
end

