-- ==== Sys2Proof/Decode.lean ====
section
/-! DEFINITION. The decoder of 30_encoding.md R43, total on 32-bit words and rejecting by name, and the encoder, written from the
opcode map of R45. -/

namespace Sys2Proof

/-- Why a command word is illegal (R46). Both reasons get the same response, ERR_ILLEGAL (60_exceptions.md R65). -/
inductive Illegal where
  /-- `CMD[31:8] ≠ 0`, whatever OPC holds. -/
  | reservedBits
  /-- `CMD[31:8] = 0` and OPC is 0x00 or 0x05 … 0xFF. -/
  | undefinedOpcode
  deriving DecidableEq, Repr

/-- OPC, bits [7:0] (R43). -/
def CommandWord.opc (w : CommandWord) : BitVec 8 :=
  w.extractLsb' 0 8

/-- RSVD, bits [31:8] (R43). -/
def CommandWord.rsvd (w : CommandWord) : BitVec 24 :=
  w.extractLsb' 8 24

/-- The opcode map of R45. -/
def decodeOpcode (opc : BitVec 8) : Except Illegal Instr :=
  if opc = 0x01#8 then .ok .seed
  else if opc = 0x02#8 then .ok .seedTime
  else if opc = 0x03#8 then .ok .next
  else if opc = 0x04#8 then .ok .status
  else .error .undefinedOpcode

/-- Decoding (R43): RSVD is looked at first, then OPC alone selects the command. -/
def decode (w : CommandWord) : Except Illegal Instr :=
  if w.rsvd ≠ 0#24 then .error .reservedBits else decodeOpcode w.opc

/-- The opcode of each command (R45). -/
def Instr.opcode : Instr → BitVec 8
  | .seed => 0x01#8
  | .seedTime => 0x02#8
  | .next => 0x03#8
  | .status => 0x04#8

/-- The command word of each command: RSVD zero, then OPC (R43, R45). -/
def encode (i : Instr) : CommandWord :=
  0#24 ++ i.opcode

/-- The decoder on a word numbered as opcode_table.json numbers it. Every command is one 32-bit word, and "no command has another
length" (R43, R47). -/
def decodeTableWord (nbits w : Nat) : Option Instr :=
  if nbits = 32 ∧ w < 2 ^ 32 then (decode (BitVec.ofNat 32 w)).toOption else none

end Sys2Proof
end

