-- ==== Sys2Proof/Config.lean ====
section
/-! DEFINITION. The configuration of an engine: the word size, the algorithm constants `MTParams` and, when W = 32, the pair
order (00_scope.md R6, R7, R8), with the block's own configuration; and the one free value of the model. -/

namespace Sys2Proof

/-- The algorithm constants of R7, one record per word size. `N` is fixed by the word size (R6); `LM`, `UM` and `Q` are the
functions of `R` and `W` that R7's table gives, so they are definitions below and no fields. Field names are R7's in lower case. -/
structure MTParams (ws : WordSize) where
  /-- `M`: the fixed index offset of the twist. -/
  m : Nat
  /-- `R`: the number of low bits in the lower mask. -/
  r : Nat
  /-- `A`: the constant XORed in when bit 0 of the combined word is 1. -/
  a : Word ws
  /-- `U`: tempering pass 1, shift right. -/
  u : Nat
  /-- `D`: tempering pass 1, mask. -/
  d : Word ws
  /-- `S`: tempering pass 2, shift left. -/
  s : Nat
  /-- `B`: tempering pass 2, mask. -/
  b : Word ws
  /-- `T`: tempering pass 3, shift left. -/
  t : Nat
  /-- `C`: tempering pass 3, mask. -/
  c : Word ws
  /-- `L`: tempering pass 4, shift right, no mask. -/
  l : Nat
  /-- `F`: the seeding multiplier. -/
  f : Word ws
  deriving DecidableEq, Repr

/-- `LM = 2^R - 1` (R7). -/
def MTParams.lowerMask {ws : WordSize} (p : MTParams ws) : Word ws :=
  BitVec.ofNat ws.bits (2 ^ p.r - 1)

/-- `UM = (2^W - 1) XOR LM` (R7). -/
def MTParams.upperMask {ws : WordSize} (p : MTParams ws) : Word ws :=
  BitVec.allOnes ws.bits ^^^ p.lowerMask

/-- `Q = W - 2`, the seeding pre-mix shift (R7). -/
def WordSize.premixShift (ws : WordSize) : Nat :=
  ws.bits - 2

/-- The W = 64 defaults of R7. PRESUMED by the spec itself (from general knowledge, 93_implementation_defined.md G2 to G4);
log entry 2. -/
def MTParams.default64 : MTParams .w64 where
  m := 156
  r := 31
  a := 0xB5026F5AA96619E9#64
  u := 29
  d := 0x5555555555555555#64
  s := 17
  b := 0x71D67FFFEDA60000#64
  t := 37
  c := 0xFFF7EEE000000000#64
  l := 43
  f := 6364136223846793005#64

/-- The W = 32 defaults of R7. PRESUMED by the spec itself (from general knowledge, 93_implementation_defined.md G2 to G4);
log entry 2. -/
def MTParams.default32 : MTParams .w32 where
  m := 397
  r := 31
  a := 0x9908B0DF#32
  u := 11
  d := 0xFFFFFFFF#32
  s := 7
  b := 0x9D2C5680#32
  t := 15
  c := 0xEFC60000#32
  l := 18
  f := 1812433253#32

/-- `PAIR_ORDER` (R8): which of the two words a W = 32 NEXT releases is the high half of DATA. The spec leaves it OPEN
(92_eei_decisions.md D16), so it is a parameter and every claim about W = 32 is for both orders. -/
inductive PairOrder where
  | firstHigh
  | firstLow
  deriving DecidableEq, Repr

/-- The configuration of one engine: the parameters of R6, R7 and R8. PAIR_ORDER exists only when W = 32 (R8). -/
inductive Config where
  | w64 (params : MTParams .w64)
  | w32 (params : MTParams .w32) (order : PairOrder)
  deriving DecidableEq, Repr

/-- The word size `W` of a configuration. -/
@[reducible] def Config.wordSize : Config → WordSize
  | .w64 _ => .w64
  | .w32 _ _ => .w32

/-- The constants `MTParams` of a configuration. -/
def Config.params : (c : Config) → MTParams c.wordSize
  | .w64 p => p
  | .w32 p _ => p

/-- This block's configuration: W = 64, N = 312, the default constants (R6, R7; 92_eei_decisions.md D2). -/
def Config.block : Config :=
  .w64 .default64

/-- FREE VALUE. The TimeSource draw that stands beside a request which the model itself puts on the port
(`State.withFetchWord`), indexed by how many responses the host has. TimeSource is a draw under no law (40_seeding.md R54;
92_eei_decisions.md D8, D20), so nothing is known of it; log entry 5. -/
opaque Config.freeDraw : Nat → Data

end Sys2Proof
end

