-- ==== Sys2Proof/Machine/State.lean ====
section
/-! DEFINITION. The state: the engine's own tuple (10_state.md R14), the configuration it is built with, and the port (30_encoding.md
R42) with what the platform presents to it. Reset as R30 and R78 give it. -/

namespace Sys2Proof.Machine

open Sys2Proof

/-- RESP, by name (60_exceptions.md R63). The reserved code `0b11` is never produced, so it has no name. -/
inductive Resp where
  | ok
  | errIllegal
  | errUnseeded
  deriving DecidableEq, Repr

/-- A request `(CMD, OPERAND)` (R42). -/
structure Request where
  cmd : CommandWord
  operand : Data
  deriving DecidableEq, Repr

/-- A response `(RESP, DATA)` (R42). -/
structure Response where
  resp : Resp
  data : Data
  deriving DecidableEq, Repr

/-- What the platform does to the engine next. -/
inductive Input where
  /-- The host puts a request on the port; `draw` is the value TimeSource gives if this command draws (the `Draw` argument of
  R42's step function). -/
  | command (request : Request) (draw : Data)
  /-- The reset signal, "outside the command port, that may come between any two commands" (70_reset_and_hazards.md R78). -/
  | reset
  deriving DecidableEq, Repr

/-- The architectural state of one engine, the tuple of R14, for a configuration `c`. -/
structure Engine (c : Config) where
  /-- `MT[0..N-1]` (R15); `none` while the words hold no value, from reset to the first INIT (R16, R30).
  INIT and TWIST write all N words, so the words hold values together or not at all; log entry 6. -/
  mt : Option (WordFile c.wordSize)
  /-- `CURSOR` (R17). -/
  cursor : Cursor
  /-- `SEEDED` (R20). -/
  seeded : Bool
  /-- `ILL_SEEN` (R21). -/
  illSeen : Bool
  /-- `UNS_SEEN` (R21). -/
  unsSeen : Bool
  deriving DecidableEq, Repr

/-- The machine: one engine, its hardwired configuration, and its port.
`inputs` and `responses` are the model's own (log entry 4): what the platform will present, in order, and what the host has
received, in issue order. -/
structure State where
  /-- Parameters, no architectural state (R14); carried here so that every claim is about every configuration, log entry 1.
  Hardwired: "no command and no reset changes it" (R24 of WSEL, the part of it that is visible). -/
  config : Config
  engine : Engine config
  inputs : List Input
  responses : List Response
  deriving DecidableEq, Repr

/-- Why the machine stops. No step from a state that a run from reset reaches ends in either. -/
inductive Fault where
  /-- Raised by NEXT when SEEDED is 1 and the word file holds no value: "reading one would be a fault, not a zero" (R16;
  R30; 93_implementation_defined.md I5). Safe. No run reaches such a state. -/
  | unwrittenWord
  /-- Raised by every meaning when no request stands on the port: "a command word acts only when it is presented on the port"
  (20_memory.md R40). Safe. `step` never raises it, since it decodes only a word that is presented. -/
  | noRequest
  deriving DecidableEq, Repr

/-- An instruction without a meaning in the model. -/
inductive Refusal where
  /-- Raised by no arm of `exec` now: every row of the opcode table has its meaning. Safe. -/
  | notModelled (mnemonic : String)
  deriving DecidableEq, Repr

/-- The engine right after reset (R30, R78): no word holds a value, `CURSOR = N`, the three flags are 0. -/
def Engine.reset (c : Config) : Engine c where
  mt := none
  cursor := BitVec.ofNat 10 c.wordSize.wordCount
  seeded := false
  illSeen := false
  unsSeen := false

/-- The machine right after reset, in a given configuration, with nothing presented on the port. -/
def State.resetWith (c : Config) : State where
  config := c
  engine := Engine.reset c
  inputs := []
  responses := []

/-- The machine right after reset, in this block's configuration (R6, R30, R78). -/
def State.reset : State :=
  State.resetWith Config.block

end Sys2Proof.Machine
end

