-- ==== Sys2Proof/Machine/Flags.lean ====
section
/-! DEFINITION. The response codes and sticky flags (60_exceptions.md R63, R64; 10_state.md R21) and the STATUS word (R23, R24). -/

namespace Sys2Proof.Machine

open Sys2Proof

/-- The 2-bit RESP code (R63). -/
def Resp.code : Resp → BitVec 2
  | .ok => 0b00#2
  | .errIllegal => 0b01#2
  | .errUnseeded => 0b10#2

/-- The two errors (R65, R66). -/
inductive Error where
  | illegal
  | unseeded
  deriving DecidableEq, Repr

/-- The response code of an error (R65, R66). -/
def Error.resp : Error → Resp
  | .illegal => .errIllegal
  | .unseeded => .errUnseeded

/-- Set an error's sticky flag, and nothing else (R64). -/
def Engine.setSticky {c : Config} : Error → Engine c → Engine c
  | .illegal, e => { e with illSeen := true }
  | .unseeded, e => { e with unsSeen := true }

/-- `WSEL` (R24): 1 when W = 64, 0 when W = 32. -/
def wsel : WordSize → Bool
  | .w64 => true
  | .w32 => false

/-- The STATUS word (R23): `zext_64({CURSOR[9:0], 7'b0, WSEL, 5'b0, UNS_SEEN, ILL_SEEN, SEEDED})`. A view of the state, no storage
of its own. -/
def statusWord {c : Config} (e : Engine c) : Data :=
  (e.cursor ++ 0#7 ++ BitVec.ofBool (wsel c.wordSize) ++ 0#5 ++ BitVec.ofBool e.unsSeen ++ BitVec.ofBool e.illSeen ++
    BitVec.ofBool e.seeded).setWidth 64

end Sys2Proof.Machine
end

