-- ==== Sys2Proof/Machine/Operands.lean ====
section
/-! DEFINITION. How a 64-bit value on the port becomes a seed word (30_encoding.md R44), and how released words become DATA
(41_generation.md R57). -/

namespace Sys2Proof.Machine

open Sys2Proof

/-- The seed word of a 64-bit OPERAND or TimeSource draw: `v[63:0]` when W = 64, `v[31:0]` when W = 32 (R44, 40_seeding.md R53, R54). -/
def seedWord : (ws : WordSize) → Data → Word ws
  | .w64, v => v
  | .w32, v => v.extractLsb' 0 32

/-- DATA of a W = 32 NEXT from its first word `a` and its second word `b` (R57): `{a, b}` or `{b, a}` by PAIR_ORDER. -/
def pairData : PairOrder → BitVec 32 → BitVec 32 → Data
  | .firstHigh, a, b => a ++ b
  | .firstLow, a, b => b ++ a

end Sys2Proof.Machine
end

