-- ==== Sys2Proof/Machine/Ops.lean ====
section
/-! DEFINITION. The named operations: the word file's read and write (00_scope.md R11), the micro-operations INIT, TWIST and TEMPER
(R12; 40_seeding.md R50; 41_generation.md R55, R56), the release step of NEXT (R57), and the port: taking the request, responding,
raising an error (60_exceptions.md R64) and the reset signal (70_reset_and_hazards.md R78). There is no return from an error: "an
error response is final for its command" (60_exceptions.md R70). -/

namespace Sys2Proof.Machine

open Sys2Proof

/-- Read `MT[i mod N]`. The spec's indices are in `0 … N-1` or reduced `mod N` (20_memory.md R33). -/
def readWord {ws : WordSize} (mt : WordFile ws) (i : Nat) : Word ws :=
  mt[i % ws.wordCount]'(Nat.mod_lt i ws.wordCount_pos)

/-- `MT[i mod N] <- v`. -/
def writeWord {ws : WordSize} (mt : WordFile ws) (i : Nat) (v : Word ws) : WordFile ws :=
  mt.set (i % ws.wordCount) v (Nat.mod_lt i ws.wordCount_pos)

/-- INIT's word `i` from the word `q` before it: `F * (q ^ (q >> Q)) + i`, with `i` as a W-bit unsigned value (R50). -/
def seedStep {ws : WordSize} (p : MTParams ws) (i : Nat) (q : Word ws) : Word ws :=
  p.f * (q ^^^ (q >>> ws.premixShift)) + BitVec.ofNat ws.bits i

/-- INIT's loop (R50): the `k` words from index `i` on, in ascending order, when word `i` is `q`. -/
def seedWordsFrom {ws : WordSize} (p : MTParams ws) : Nat → Nat → Word ws → List (Word ws)
  | 0, _, _ => []
  | k + 1, i, q => q :: seedWordsFrom p k (i + 1) (seedStep p (i + 1) q)

/-- INIT's loop writes as many words as it is asked for. -/
theorem seedWordsFrom_length {ws : WordSize} (p : MTParams ws) (k i : Nat) (q : Word ws) :
    (seedWordsFrom p k i q).length = k := by
  induction k generalizing i q with
  | zero => rfl
  | succ k ih => simp [seedWordsFrom, ih]

/-- The array INIT writes (R50): every word, from `MT[0] <- seed` on; no word of an earlier array has a part in it. -/
def initFile {ws : WordSize} (p : MTParams ws) (seed : Word ws) : WordFile ws :=
  ⟨(seedWordsFrom p ws.wordCount 0 seed).toArray, by simp [seedWordsFrom_length]⟩

/-- INIT(seed) (R50): the array, and `CURSOR <- N`. It writes no flag. -/
def Engine.init {c : Config} (seed : Word c.wordSize) (e : Engine c) : Engine c :=
  { e with mt := some (initFile c.params seed), cursor := BitVec.ofNat 10 c.wordSize.wordCount }

/-- `x >> 1`, XORed with `A` when `x[0] = 1` (R55). -/
def twistMix {ws : WordSize} (p : MTParams ws) (x : Word ws) : Word ws :=
  if x.getLsbD 0 then (x >>> 1) ^^^ p.a else x >>> 1

/-- The mask split of R55: the upper bits of one word and the lower bits of the next. -/
def maskSplit {ws : WordSize} (p : MTParams ws) (hi lo : Word ws) : Word ws :=
  (hi &&& p.upperMask) ||| (lo &&& p.lowerMask)

/-- Step `i` of TWIST, in place (R55). -/
def twistStep {ws : WordSize} (p : MTParams ws) (i : Nat) (mt : WordFile ws) : WordFile ws :=
  writeWord mt i (readWord mt (i + p.m) ^^^ twistMix p (maskSplit p (readWord mt i) (readWord mt (i + 1))))

/-- Steps `0 … k-1` of TWIST, strictly ascending; each reads what the steps before it wrote (R55, 70_reset_and_hazards.md R80). -/
def twistSteps {ws : WordSize} (p : MTParams ws) : Nat → WordFile ws → WordFile ws
  | 0, mt => mt
  | k + 1, mt => twistStep p k (twistSteps p k mt)

/-- TWIST() on the array (R55): all N steps. -/
def twist {ws : WordSize} (p : MTParams ws) (mt : WordFile ws) : WordFile ws :=
  twistSteps p ws.wordCount mt

/-- A tempering pass to the right: `y ^ ((y >> k) & m)` (R56, R62). -/
def passRight {w : Nat} (k : Nat) (m y : BitVec w) : BitVec w :=
  y ^^^ ((y >>> k) &&& m)

/-- A tempering pass to the left: `y ^ ((y << k) & m)` (R56, R62). -/
def passLeft {w : Nat} (k : Nat) (m y : BitVec w) : BitVec w :=
  y ^^^ ((y <<< k) &&& m)

/-- TEMPER(y) (R56): four passes; the last has no mask. -/
def temper {ws : WordSize} (p : MTParams ws) (y : Word ws) : Word ws :=
  let y := passRight p.u p.d y
  let y := passLeft p.s p.b y
  let y := passLeft p.t p.c y
  y ^^^ (y >>> p.l)

/-- What one RELEASE leaves: the released word, the array and the cursor. -/
structure Released (ws : WordSize) where
  word : Word ws
  mt : WordFile ws
  cursor : Cursor
  deriving DecidableEq, Repr

/-- The lazy twist at the start of RELEASE (R57, 10_state.md R18): when `CURSOR >= N`, TWIST and `CURSOR <- 0`; otherwise nothing.
The test is `>=`, so it is total on every 10-bit cursor (90_conflicts.md C7, 93_implementation_defined.md I9). -/
def refresh {ws : WordSize} (p : MTParams ws) (mt : WordFile ws) (cursor : Cursor) : WordFile ws × Cursor :=
  if ws.wordCount ≤ cursor.toNat then (twist p mt, 0#10) else (mt, cursor)

/-- RELEASE() of R57: the lazy twist, then `y <- MT[CURSOR]` and `CURSOR <- CURSOR + 1`. -/
def release {ws : WordSize} (p : MTParams ws) (mt : WordFile ws) (cursor : Cursor) : Released ws :=
  let b := refresh p mt cursor
  ⟨readWord b.1 b.2.toNat, b.1, b.2 + 1#10⟩

/-- What a NEXT that runs leaves: DATA, the array and the cursor. -/
structure Output (ws : WordSize) where
  data : Data
  mt : WordFile ws
  cursor : Cursor
  deriving DecidableEq, Repr

/-- The output of NEXT (R57): one tempered word when W = 64, two paired by PAIR_ORDER when W = 32. -/
def nextOutput : (c : Config) → WordFile c.wordSize → Cursor → Output c.wordSize
  | .w64 p, mt, cursor =>
    let a := release p mt cursor
    ⟨temper p a.word, a.mt, a.cursor⟩
  | .w32 p order, mt, cursor =>
    let a := release p mt cursor
    let b := release p a.mt a.cursor
    ⟨pairData order (temper p a.word) (temper p b.word), b.mt, b.cursor⟩

/-- Run a command on the request that stands on the port, with the TimeSource value that goes with it. -/
def withRequest (s : State) (k : Request → Data → Host.Outcome State Fault Refusal) : Host.Outcome State Fault Refusal :=
  match s.inputs with
  | .command r t :: _ => k r t
  | _ => .fault .noRequest

/-- `respond(resp, data)` (R11): the one response of the current command, after which the port takes the next request (R42). -/
def respond (resp : Resp) (data : Data) (s : State) : State :=
  { s with inputs := s.inputs.tail, responses := s.responses ++ [⟨resp, data⟩] }

/-- Change the engine's state tuple; configuration and port stay. -/
def State.setEngine (s : State) (e : Engine s.config) : State :=
  { s with engine := e }

/-- `raise E` (R64): set E's sticky flag, leave every other piece of state, respond with DATA = 0. -/
def raise (err : Error) (s : State) : State :=
  respond err.resp 0#64 (s.setEngine (s.engine.setSticky err))

/-- INIT from a 64-bit value, then `SEEDED <- 1`: the shared part of SEED and SEED_TIME (R53, R54). -/
def Engine.seedFrom {c : Config} (v : Data) (e : Engine c) : Engine c :=
  { e.init (seedWord c.wordSize v) with seeded := true }

/-- The reset signal (R78): every piece of the engine's state at its reset value (R30). The configuration is hardwired (R24); the
host keeps what it has received, and no response is given. -/
def applyReset (s : State) : State :=
  { s with engine := Engine.reset s.config, inputs := s.inputs.tail }

end Sys2Proof.Machine
end

