-- ==== Sys2Proof/Machine/Generation.lean ====
section
/-! DEFINITION. The generation family: NEXT and STATUS (41_generation.md). -/

namespace Sys2Proof.Machine

open Sys2Proof

/-- NEXT (R57): ERR_UNSEEDED while SEEDED is 0 (60_exceptions.md R66); otherwise release, temper, respond. A word file that holds no
value is never read as one: that is a fault (10_state.md R16, R30, 93_implementation_defined.md I5), which no run reaches. -/
def execNext (s : State) : Host.Outcome State Fault Refusal :=
  withRequest s fun _ _ =>
    if s.engine.seeded then
      match s.engine.mt with
      | none => .fault .unwrittenWord
      | some mt =>
        let out := nextOutput s.config mt s.engine.cursor
        .next (respond .ok out.data (s.setEngine { s.engine with mt := some out.mt, cursor := out.cursor }))
    else .next (raise .unseeded s)

/-- STATUS (R58): respond (OK, STATUS), in every state; nothing is written. -/
def execStatus (s : State) : Host.Outcome State Fault Refusal :=
  withRequest s fun _ _ => .next (respond .ok (statusWord s.engine) s)

end Sys2Proof.Machine
end

