-- ==== Sys2Proof/Machine/Seeding.lean ====
section
/-! DEFINITION. The seeding family: SEED and SEED_TIME (40_seeding.md). -/

namespace Sys2Proof.Machine

open Sys2Proof

/-- SEED (R53): INIT from OPERAND, `SEEDED <- 1`, respond (OK, 0). Accepted in every state. -/
def execSeed (s : State) : Host.Outcome State Fault Refusal :=
  withRequest s fun r _ => .next (respond .ok 0#64 (s.setEngine (s.engine.seedFrom r.operand)))

/-- SEED_TIME (R54): take one TimeSource draw `t`, INIT from it, `SEEDED <- 1`, respond (OK, t). OPERAND is ignored. -/
def execSeedTime (s : State) : Host.Outcome State Fault Refusal :=
  withRequest s fun _ t => .next (respond .ok t (s.setEngine (s.engine.seedFrom t)))

end Sys2Proof.Machine
end

