-- ==== Sys2Proof/Machine/Dispatch.lean ====
section
/-! DEFINITION. The dispatch: one arm per command. -/

namespace Sys2Proof.Machine

open Sys2Proof

def exec (i : Instr) (s : State) : Host.Outcome State Fault Refusal :=
  match i with
  | .seed => Sys2Proof.Machine.execSeed s
  | .seedTime => Sys2Proof.Machine.execSeedTime s
  | .next => Sys2Proof.Machine.execNext s
  | .status => Sys2Proof.Machine.execStatus s

end Sys2Proof.Machine
end

