-- ==== Sys2Proof/Machine/Step.lean ====
section
/-! DEFINITION. One step: the next thing the platform does (30_encoding.md R42; 20_memory.md R37; 70_reset_and_hazards.md R78). -/

namespace Sys2Proof.Machine

open Sys2Proof

/-- One step of the machine. A request is performed as one atomic transition, with one response, in issue order (R37, R42); the
command word is checked before anything else (60_exceptions.md R67), and an illegal one raises ERR_ILLEGAL (R65). A reset signal
resets. With nothing presented the engine "is idle and holds its whole state" (R77). -/
def step (s : State) : Host.Outcome State Fault Refusal :=
  match s.inputs with
  | [] => .next s
  | .reset :: _ => .next (applyReset s)
  | .command r _ :: _ =>
    match decode r.cmd with
    | .error _ => .next (raise .illegal s)
    | .ok i => exec i s

/-- The same machine with one more request put on the port, before whatever else the platform will present. -/
def State.present (s : State) (r : Request) (t : Data) : State :=
  { s with inputs := .command r t :: s.inputs }

/-- The machine with the command word `w` on the port, OPERAND zero (R48; the bits above the command word), and a free TimeSource
value (`Config.freeDraw`, log entry 5). This stands for the host issuing that request; log entry 7. -/
def State.withFetchWord (s : State) (nbits w : Nat) : State :=
  s.present ⟨BitVec.ofNat 32 (w % 2 ^ nbits), 0#64⟩ (Config.freeDraw s.responses.length)

end Sys2Proof.Machine
end

