-- ==== Sys2Proof/WellFormed.lean ====
section
/-! DEFINITION. What is well formed: a command word, a constants record, a line of a command program. Every term of `Instr` is
well formed, since a command has no fields (30_encoding.md R44), so there is no check of `Instr`. -/

namespace Sys2Proof

/-- A command word is legal when it is one of the four of the opcode map; "every other 32-bit word is illegal" (R45). Written
from the table of whole words; the decoder goes by the two fields of R43. -/
def CommandWord.legal (w : CommandWord) : Bool :=
  w == 0x00000001#32 || w == 0x00000002#32 || w == 0x00000003#32 || w == 0x00000004#32

/-- What the spec says of every constants record: the offset is a state index other than 0, the masks split a word in two
proper parts, the tempering shifts "all lie in `1 … W-1`" (41_generation.md R56), and `A` is odd (R55, 90_conflicts.md C2).
DEDUCED for `M` and `R`, of which the spec gives only the two pairs of values; log entry 3. -/
def MTParams.wf {ws : WordSize} (p : MTParams ws) : Bool :=
  decide (1 ≤ p.m ∧ p.m < ws.wordCount) && decide (1 ≤ p.r ∧ p.r < ws.bits) &&
  decide (1 ≤ p.u ∧ p.u < ws.bits) && decide (1 ≤ p.s ∧ p.s < ws.bits) &&
  decide (1 ≤ p.t ∧ p.t < ws.bits) && decide (1 ≤ p.l ∧ p.l < ws.bits) && p.a.getLsbD 0

/-- The limits R48 sets: `<imm64>` in `[0, 2^64)`, an `<imm32>` that is a command word, and `k ≥ 1`. -/
def Line.wf : Line → Bool
  | .seed imm => decide (imm < 2 ^ 64)
  | .seedTime => true
  | .next => true
  | .nextTimes k => decide (1 ≤ k)
  | .status => true
  | .word imm => decide (imm < 2 ^ 32)
  | .newSeed imm => decide (imm < 2 ^ 64)
  | .newTime => true
  | .reseed imm => decide (imm < 2 ^ 64)
  | .nextU64 => true

end Sys2Proof
end

