-- ==== Sys2Proof/Machine/Assembler.lean ====
section
/-! DEFINITION. Command programs: the lines of 30_encoding.md R48 and the pseudo-commands of R49 as requests on the port, and the
reader of their text. The engine itself keeps no program (10_state.md R19): the host issues the requests one by one.
The layout of the text beyond R48's words is a DESIGN CHOICE, log entry 9. -/

namespace Sys2Proof.Machine

open Sys2Proof

/-- A command issued with `OPERAND = 0` (R48). -/
def plainRequest (i : Instr) : Request :=
  ⟨encode i, 0#64⟩

/-- `SEED <imm64>`: the literal becomes OPERAND (R48). -/
def seedRequest (imm : Nat) : Request :=
  ⟨encode .seed, BitVec.ofNat 64 imm⟩

/-- The requests a line stands for (R48), the pseudo-commands by their expansions (R49). -/
def Line.requests : Line → List Request
  | .seed imm => [seedRequest imm]
  | .seedTime => [plainRequest .seedTime]
  | .next => [plainRequest .next]
  | .nextTimes k => List.replicate k (plainRequest .next)
  | .status => [plainRequest .status]
  | .word imm => [⟨BitVec.ofNat 32 imm, 0#64⟩]
  | .newSeed imm => [seedRequest imm]
  | .newTime => [plainRequest .seedTime]
  | .reseed imm => [seedRequest imm]
  | .nextU64 => [plainRequest .next]

/-- The requests of a program, in issue order. -/
def assemble (lines : List Line) : List Request :=
  lines.flatMap Line.requests

/-- A program's requests as inputs, the k-th with the k-th of the given TimeSource values. -/
def issue : List Request → List Data → List Input
  | r :: rs, t :: ts => .command r t :: issue rs ts
  | _, _ => []

/-- The text of a line up to its comment: "a comment starts with `;`" (R48). -/
def stripComment (line : List Char) : List Char :=
  line.takeWhile (· != ';')

/-- The words of a line, divided at spaces. -/
def tokens : List Char → List (List Char)
  | [] => []
  | ch :: rest =>
    if ch = ' ' then tokens rest
    else
      match rest, tokens rest with
      | next :: _, tok :: toks => if next = ' ' then [ch] :: tok :: toks else (ch :: tok) :: toks
      | _, toks => [ch] :: toks

/-- The value of one digit in a base up to 16. -/
def digit (base : Nat) (ch : Char) : Option Nat :=
  let n := ch.toNat
  let v :=
    if '0'.toNat ≤ n ∧ n ≤ '9'.toNat then n - '0'.toNat
    else if 'a'.toNat ≤ n ∧ n ≤ 'f'.toNat then n - 'a'.toNat + 10
    else if 'A'.toNat ≤ n ∧ n ≤ 'F'.toNat then n - 'A'.toNat + 10
    else 16
  if v < base then some v else none

/-- Digits in a base, most significant first; `_` is a digit separator (00_scope.md R9). R9 leaves open whether separators may
stand in a row or after the last digit: here both are read, and a separator never changes the value (`5_` and `5__` are 5).
DESIGN CHOICE, log entry 9. -/
def digits (base : Nat) : Nat → List Char → Option Nat
  | acc, [] => some acc
  | acc, ch :: rest =>
    if ch = '_' then digits base acc rest
    else (digit base ch).bind fun d => digits base (acc * base + d) rest

/-- A literal: `0x` and hexadecimal digits, or decimal digits (R48). It begins with a digit: a separator before the first digit,
right after `0x` too, is refused (DESIGN CHOICE, log entry 9). -/
def literal : List Char → Option Nat
  | '0' :: 'x' :: ch :: rest => if ch = '_' then none else digits 16 0 (ch :: rest)
  | ch :: rest => if ch = '_' then none else digits 10 0 (ch :: rest)
  | [] => none

/-- The line that a line's words spell, its literals not yet checked against their limits. -/
def lineOfTokens : List (List Char) → Option Line
  | [['S', 'E', 'E', 'D'], imm] => (literal imm).map .seed
  | [['S', 'E', 'E', 'D', '_', 'T', 'I', 'M', 'E']] => some .seedTime
  | [['N', 'E', 'X', 'T']] => some .next
  | [['N', 'E', 'X', 'T'], '×' :: k] => (literal k).map .nextTimes
  | [['S', 'T', 'A', 'T', 'U', 'S']] => some .status
  | [['.', 'w', 'o', 'r', 'd'], imm] => (literal imm).map .word
  | [['N', 'E', 'W'], imm] => (literal imm).map .newSeed
  | [['N', 'E', 'W']] => some .newTime
  | [['R', 'E', 'S', 'E', 'E', 'D'], imm] => (literal imm).map .reseed
  | [['N', 'E', 'X', 'T', '_', 'U', '6', '4']] => some .nextU64
  | _ => none

/-- Read one line of text: no line at all when only a space or a comment stands there, `none` when it is not of R48's or R49's form
or a literal is outside its limits. -/
def parseLine (text : List Char) : Option (List Line) :=
  match tokens (stripComment text) with
  | [] => some []
  | toks => (lineOfTokens toks).bind fun l => if l.wf then some [l] else none

/-- Read a program, "one command per line" (R48). -/
def parseProgram : List (List Char) → Option (List Line)
  | [] => some []
  | text :: rest => (parseLine text).bind fun l => (parseProgram rest).map fun ls => l ++ ls

end Sys2Proof.Machine
end

