-- ==== Sys2Proof/Safety.lean ====
section
/-! DEFINITION. The terms claims are stated in: the states the engine can rest in, runs, and the XOR of two arrays. -/

namespace Sys2Proof.Machine

open Sys2Proof

/-- The states an engine can rest in between commands: SEEDED is 1 exactly when the word file holds values (10_state.md R16, R20), the
cursor is in `[0, N]` (R17), and even when W = 32 (41_generation.md R60). -/
abbrev Engine.Valid {c : Config} (e : Engine c) : Prop :=
  e.seeded = e.mt.isSome ∧ e.cursor.toNat ≤ c.wordSize.wordCount ∧ (c.wordSize = .w32 → e.cursor.toNat % 2 = 0)

/-- A state whose engine is valid. -/
abbrev State.Valid (s : State) : Prop :=
  s.engine.Valid

/-- `k` steps of the machine. -/
def run (k : Nat) (s : State) : Host.Outcome State Fault Refusal :=
  Host.Core.run Sys2Proof.core k s

/-- Does this input put a request on the port? -/
def Input.isCommand : Input → Bool
  | .command _ _ => true
  | .reset => false

/-- Does this input put the word of command `i` on the port? -/
def Input.issues (i : Instr) : Input → Bool
  | .command r _ => r.cmd == encode i
  | .reset => false

/-- The word-by-word XOR of two arrays (41_generation.md R61). -/
def xorFile {ws : WordSize} (a b : WordFile ws) : WordFile ws :=
  Vector.zipWith (· ^^^ ·) a b

/-- The array of all zero words. -/
def zeroFile (ws : WordSize) : WordFile ws :=
  Vector.replicate ws.wordCount 0

end Sys2Proof.Machine
end

