-- ==== Sys2Proof/Certificates/Slice0/Obligations.lean ====
section
/-! DEFINITION. The statements for the provers. Each docstring names the rule it formalises; the numbers and tiers are in
OBLIGATIONS.json. -/

open Sys2Proof Sys2Proof.Machine

/-! ### Encoding -/

/-- 30_encoding.md R45: the four words of the opcode map, and a word decodes to a command exactly when it is that command's word. -/
def Obligations.DecodeAcceptsExactlyTheFourWords : Prop :=
  encode .seed = 0x00000001#32 ∧ encode .seedTime = 0x00000002#32 ∧ encode .next = 0x00000003#32 ∧
  encode .status = 0x00000004#32 ∧ ∀ (w : CommandWord) (i : Instr), decode w = .ok i ↔ w = encode i

/-- 30_encoding.md R43, R46: a word is rejected for its reserved field exactly when `CMD[31:8] ≠ 0`, whatever its low byte; with
that field zero the low byte alone decides, and 0x00 and 0x05 to 0xFF are rejected. Said of the word as an integer. -/
def Obligations.DecodeNamesTheRejectedField : Prop :=
  ∀ w : CommandWord,
    (decode w = .error .reservedBits ↔ 256 ≤ w.toNat) ∧
    (decode w = .error .undefinedOpcode ↔ w.toNat = 0 ∨ (5 ≤ w.toNat ∧ w.toNat ≤ 255)) ∧
    ((∃ i, decode w = .ok i) ↔ 1 ≤ w.toNat ∧ w.toNat ≤ 4)

/-- Words written out from R43 and R45: opcode in the low byte, zero above it; and words the spec's vectors E2 to E6 reject. -/
def Obligations.DecodeOfWrittenOutWords : Prop :=
  decode 0b00000000_00000000_00000000_00000001#32 = .ok .seed ∧
  decode 0b00000000_00000000_00000000_00000010#32 = .ok .seedTime ∧
  decode 0b00000000_00000000_00000000_00000011#32 = .ok .next ∧
  decode 0b00000000_00000000_00000000_00000100#32 = .ok .status ∧
  decode 0x00000000#32 = .error .undefinedOpcode ∧ decode 0x000000FF#32 = .error .undefinedOpcode ∧
  decode 0x00000103#32 = .error .reservedBits ∧ decode 0x80000001#32 = .error .reservedBits

/-- 20_memory.md R37, 30_encoding.md R42: when the word on the port decodes to a command, a step is that command's meaning, nothing
around it; and `withFetchWord` puts a word where the next step takes it. -/
def Obligations.StepRunsTheDecodedCommand : Prop :=
  (∀ (s : State) (r : Request) (t : Data) (rest : List Input) (i : Instr),
    s.inputs = .command r t :: rest → decode r.cmd = .ok i → step s = exec i s) ∧
  ∀ (s : State) (w : Nat) (i : Instr), decodeTableWord 32 w = some i →
    step (s.withFetchWord 32 w) = exec i (s.withFetchWord 32 w)

/-! ### What each command does -/

/-- 40_seeding.md R53: SEED fills the array from OPERAND, leaves `CURSOR = N` and `SEEDED = 1`, keeps the sticky flags, answers
(OK, 0), in every state; its word is 0x00000001; the seed is OPERAND, or its low 32 bits when W = 32. -/
def Obligations.SeedFillsFromOperand : Prop :=
  (∀ (s : State) (r : Request) (t : Data) (rest : List Input), s.inputs = .command r t :: rest →
    exec .seed s = .next
      { config := s.config
        engine :=
          { mt := some (initFile s.config.params (seedWord s.config.wordSize r.operand))
            cursor := BitVec.ofNat 10 s.config.wordSize.wordCount
            seeded := true
            illSeen := s.engine.illSeen
            unsSeen := s.engine.unsSeen }
        inputs := rest
        responses := s.responses ++ [⟨.ok, 0#64⟩] } ∧
    (r.cmd = 0x00000001#32 → step s = exec .seed s)) ∧
  ∀ v : Data, seedWord .w64 v = v ∧ (seedWord .w32 v).toNat = v.toNat % 2 ^ 32

/-- 40_seeding.md R54: SEED_TIME does the same from one TimeSource draw `t` (`t[31:0]` when W = 32), ignores OPERAND, and
answers (OK, t). -/
def Obligations.SeedTimeFillsFromTheDraw : Prop :=
  (∀ (s : State) (r : Request) (t : Data) (rest : List Input), s.inputs = .command r t :: rest →
    exec .seedTime s = .next
      { config := s.config
        engine :=
          { mt := some (initFile s.config.params (seedWord s.config.wordSize t))
            cursor := BitVec.ofNat 10 s.config.wordSize.wordCount
            seeded := true
            illSeen := s.engine.illSeen
            unsSeen := s.engine.unsSeen }
        inputs := rest
        responses := s.responses ++ [⟨.ok, t⟩] } ∧
    (r.cmd = 0x00000002#32 → step s = exec .seedTime s)) ∧
  ∀ v : Data, seedWord .w64 v = v ∧ (seedWord .w32 v).toNat = v.toNat % 2 ^ 32

/-- 40_seeding.md R54, "pass the returned `t` back to `SEED t`": SEED_TIME with draw `t` and SEED with OPERAND `t` leave the same
engine, whatever else the two requests hold. -/
def Obligations.SeedTimeLeavesTheStateOfSeed : Prop :=
  ∀ (s : State) (w w' : CommandWord) (v t t' : Data) (s₁ s₂ : State),
    exec .seedTime (s.present ⟨w, v⟩ t) = .next s₁ → exec .seed (s.present ⟨w', t⟩ t') = .next s₂ →
    ∃ (e : Engine s.config) (x y : List Response), s₁ = ⟨s.config, e, s.inputs, x⟩ ∧ s₂ = ⟨s.config, e, s.inputs, y⟩

/-- 41_generation.md R57: NEXT on an unseeded engine, and on a seeded one for W = 64 and W = 32, for every 10-bit cursor and every
constants record. With `CURSOR >= N` the array is twisted first and word 0 is the next to go; otherwise the word under the cursor
is. When W = 32 two words go, and the pair order says which is the high half. -/
def Obligations.NextReleasesAndTempers : Prop :=
  (∀ (s : State) (r : Request) (t : Data) (rest : List Input), s.inputs = .command r t :: rest →
    (r.cmd = 0x00000003#32 → step s = exec .next s) ∧
    (s.engine.seeded = false →
      exec .next s = .next
        ⟨s.config, { s.engine with unsSeen := true }, rest, s.responses ++ [⟨.errUnseeded, 0#64⟩]⟩)) ∧
  (∀ (p : MTParams .w64) (e : Engine (.w64 p)) (mt : WordFile .w64) (r : Request) (t : Data) (rest : List Input)
      (out : List Response), e.seeded = true → e.mt = some mt →
    let n := e.cursor.toNat
    let mt' := if n < 312 then mt else twist p mt
    let n' := if n < 312 then n else 0
    exec .next ⟨.w64 p, e, .command r t :: rest, out⟩ = .next
      ⟨.w64 p, { e with mt := some mt', cursor := BitVec.ofNat 10 (n' + 1) }, rest,
        out ++ [⟨.ok, temper p (readWord mt' n')⟩]⟩) ∧
  (∀ (p : MTParams .w32) (order : PairOrder) (e : Engine (.w32 p order)) (mt : WordFile .w32) (r : Request) (t : Data)
      (rest : List Input) (out : List Response), e.seeded = true → e.mt = some mt →
    let n := e.cursor.toNat
    let mt' := if n ≤ 622 then mt else twist p mt
    let a := temper p (if n ≤ 622 then readWord mt n else if n = 623 then readWord mt 623 else readWord mt' 0)
    let b := temper p (if n ≤ 622 then readWord mt (n + 1) else if n = 623 then readWord mt' 0 else readWord mt' 1)
    let n' := if n ≤ 622 then n + 2 else if n = 623 then 1 else 2
    exec .next ⟨.w32 p order, e, .command r t :: rest, out⟩ = .next
      ⟨.w32 p order, { e with mt := some mt', cursor := BitVec.ofNat 10 n' }, rest,
        out ++ [⟨.ok, match order with | .firstHigh => a ++ b | .firstLow => b ++ a⟩]⟩)

/-- 41_generation.md R58: STATUS answers (OK, STATUS) in every state and writes nothing; right after reset the word is
0x0000000001380100 when W = 64 and 0x0000000002700000 when W = 32. -/
def Obligations.StatusReportsAndWritesNothing : Prop :=
  (∀ (s : State) (r : Request) (t : Data) (rest : List Input), s.inputs = .command r t :: rest →
    exec .status s = .next
      ⟨s.config, s.engine, rest, s.responses ++
        [⟨.ok, (s.engine.cursor ++ 0#7 ++ (if s.config.wordSize = .w64 then 1#1 else 0#1) ++ 0#5 ++
          BitVec.ofBool s.engine.unsSeen ++ BitVec.ofBool s.engine.illSeen ++
          BitVec.ofBool s.engine.seeded).setWidth 64⟩]⟩ ∧
    (r.cmd = 0x00000004#32 → step s = exec .status s)) ∧
  (∀ p : MTParams .w64, statusWord (Engine.reset (.w64 p)) = 0x0000000001380100#64) ∧
  ∀ (p : MTParams .w32) (order : PairOrder), statusWord (Engine.reset (.w32 p order)) = 0x0000000002700000#64

/-- 10_state.md R23: every field of the STATUS word, the reserved ones reading zero. -/
def Obligations.StatusWordFields : Prop :=
  ∀ (c : Config) (e : Engine c),
    (statusWord e).getLsbD 0 = e.seeded ∧ (statusWord e).getLsbD 1 = e.illSeen ∧ (statusWord e).getLsbD 2 = e.unsSeen ∧
    (statusWord e).extractLsb' 3 5 = 0#5 ∧ (statusWord e).getLsbD 8 = decide (c.wordSize = .w64) ∧
    (statusWord e).extractLsb' 9 7 = 0#7 ∧ (statusWord e).extractLsb' 16 10 = e.cursor ∧
    (statusWord e).extractLsb' 26 38 = 0#38

/-! ### Errors -/

/-- 60_exceptions.md R64: raising either error sets its own sticky flag, leaves every other piece of state, and answers with the
error's code and DATA = 0. -/
def Obligations.RaiseIsPrecise : Prop :=
  ∀ s : State,
    raise .illegal s = ⟨s.config, { s.engine with illSeen := true }, s.inputs.tail, s.responses ++ [⟨.errIllegal, 0#64⟩]⟩ ∧
    raise .unseeded s = ⟨s.config, { s.engine with unsSeen := true }, s.inputs.tail, s.responses ++ [⟨.errUnseeded, 0#64⟩]⟩

/-- 60_exceptions.md R65, 30_encoding.md R46: a word with `CMD[31:8] ≠ 0`, or with `CMD[7:0]` not 1, 2, 3 or 4, gets (ERR_ILLEGAL, 0)
in any state and changes ILL_SEEN only. -/
def Obligations.IllegalWordSetsOnlyIllSeen : Prop :=
  ∀ (s : State) (r : Request) (t : Data) (rest : List Input), s.inputs = .command r t :: rest →
    (r.cmd.extractLsb' 8 24 ≠ 0#24 ∨ r.cmd.extractLsb' 0 8 ∉ [0x01#8, 0x02#8, 0x03#8, 0x04#8]) →
    step s = .next ⟨s.config, { s.engine with illSeen := true }, rest, s.responses ++ [⟨.errIllegal, 0#64⟩]⟩

/-- 60_exceptions.md R66: the NEXT word while SEEDED is 0 gets (ERR_UNSEEDED, 0) and changes UNS_SEEN only; and no other request gets
that response. -/
def Obligations.UnseededErrorIsForNextOnly : Prop :=
  (∀ (s : State) (r : Request) (t : Data) (rest : List Input), s.inputs = .command r t :: rest →
    r.cmd = 0x00000003#32 → s.engine.seeded = false →
    step s = .next ⟨s.config, { s.engine with unsSeen := true }, rest, s.responses ++ [⟨.errUnseeded, 0#64⟩]⟩) ∧
  ∀ (s s' : State) (d : Data), step s = .next s' → s'.responses = s.responses ++ [⟨.errUnseeded, d⟩] →
    ∃ (r : Request) (t : Data) (rest : List Input), s.inputs = .command r t :: rest ∧ r.cmd = 0x00000003#32 ∧
      s.engine.seeded = false ∧ d = 0#64

/-- 60_exceptions.md R63, R67: the codes, and the one response to any request: ERR_ILLEGAL by the word alone, then ERR_UNSEEDED for a
NEXT while unseeded, otherwise OK. The code 0b11 is never produced. -/
def Obligations.ResponseCodeByPriority : Prop :=
  (Resp.code .ok = 0b00#2 ∧ Resp.code .errIllegal = 0b01#2 ∧ Resp.code .errUnseeded = 0b10#2) ∧
  ∀ (s : State) (r : Request) (t : Data) (rest : List Input), s.Valid → s.inputs = .command r t :: rest →
    ∃ (s' : State) (d : Data) (resp : Resp), step s = .next s' ∧ s'.responses = s.responses ++ [⟨resp, d⟩] ∧ s'.inputs = rest ∧
      resp.code ≠ 0b11#2 ∧
      resp.code = if ¬(1 ≤ r.cmd.toNat ∧ r.cmd.toNat ≤ 4) then 0b01#2
        else if r.cmd = 0x00000003#32 ∧ s.engine.seeded = false then 0b10#2 else 0b00#2

/-- 10_state.md R16, 20_memory.md R40: when a meaning stops. It faults without a request on the port; NEXT faults when SEEDED is 1 over
a word file that holds no value; nothing else stops, and nothing is refused. -/
def Obligations.WhenAMeaningStops : Prop :=
  ∀ (i : Instr) (s : State),
    (exec i s = .fault .noRequest ↔ ∀ (r : Request) (t : Data) (rest : List Input), s.inputs ≠ .command r t :: rest) ∧
    (exec i s = .fault .unwrittenWord ↔
      i = .next ∧ s.engine.seeded = true ∧ s.engine.mt = none ∧ ∃ r t rest, s.inputs = .command r t :: rest) ∧
    ∀ ρ, exec i s ≠ .refused ρ

/-! ### Frames and writers -/

/-- What a command that goes on leaves unchanged (R15, R20, R21, R22, R24, R37): the configuration; the requests after its own; the
responses already given, to which it adds one; ILL_SEEN; UNS_SEEN except by NEXT; SEEDED except by SEED and SEED_TIME; the cursor
and the array by STATUS; and every word of the array by a NEXT that finds `CURSOR < N - 1` (when W = 64, `CURSOR < N`). -/
def Obligations.FrameOfEveryCommand : Prop :=
  ∀ (i : Instr) (s s' : State), exec i s = .next s' →
    ∃ (e' : Engine s.config) (resp : Response),
      s' = ⟨s.config, e', s.inputs.tail, s.responses ++ [resp]⟩ ∧
      e'.illSeen = s.engine.illSeen ∧
      (i ≠ .next → e'.unsSeen = s.engine.unsSeen) ∧
      (i = .next ∨ i = .status → e'.seeded = s.engine.seeded) ∧
      (i = .status → e' = s.engine) ∧
      (i = .next → s.engine.seeded = false → e' = { s.engine with unsSeen := true }) ∧
      (i = .next → s.engine.seeded = true → e'.unsSeen = s.engine.unsSeen) ∧
      (i = .next → s.engine.cursor.toNat + 1 < s.config.wordSize.wordCount → e'.mt = s.engine.mt) ∧
      (i = .next → s.config.wordSize = .w64 → s.engine.cursor.toNat < s.config.wordSize.wordCount → e'.mt = s.engine.mt)

/-- 10_state.md R15, R16: what a step can leave in the word file: nothing at all after reset, INIT's array after SEED and SEED_TIME, the
array or its twist after a NEXT on a seeded engine, and the same as before after anything else. -/
def Obligations.WritersOfTheWordFile : Prop :=
  ∀ s s' : State, step s = .next s' →
    ∃ e' : Engine s.config, s' = ⟨s.config, e', s'.inputs, s'.responses⟩ ∧
      (s.inputs = [] → e'.mt = s.engine.mt) ∧
      (∀ rest, s.inputs = .reset :: rest → e'.mt = none) ∧
      ∀ r t rest, s.inputs = .command r t :: rest →
        (r.cmd = 0x00000001#32 → e'.mt = some (initFile s.config.params (seedWord s.config.wordSize r.operand))) ∧
        (r.cmd = 0x00000002#32 → e'.mt = some (initFile s.config.params (seedWord s.config.wordSize t))) ∧
        (r.cmd = 0x00000003#32 → e'.mt = s.engine.mt ∨
          s.engine.seeded = true ∧ ∃ mt, s.engine.mt = some mt ∧ e'.mt = some (twist s.config.params mt)) ∧
        (r.cmd ≠ 0x00000001#32 → r.cmd ≠ 0x00000002#32 → r.cmd ≠ 0x00000003#32 → e'.mt = s.engine.mt)

/-- 10_state.md R20: SEEDED is written 0 by reset, 1 by SEED and SEED_TIME, and by nothing else; and it stays 1 exactly when the word
file holds values. -/
def Obligations.WritersOfSeeded : Prop :=
  ∀ s s' : State, step s = .next s' →
    (s.inputs = [] → s'.engine.seeded = s.engine.seeded) ∧
    (∀ rest, s.inputs = .reset :: rest → s'.engine.seeded = false) ∧
    (∀ r t rest, s.inputs = .command r t :: rest →
      s'.engine.seeded = (s.engine.seeded || r.cmd == 0x00000001#32 || r.cmd == 0x00000002#32)) ∧
    (s.engine.seeded = s.engine.mt.isSome → s'.engine.seeded = s'.engine.mt.isSome)

/-- 10_state.md R21: ILL_SEEN becomes 1 with an illegal word, UNS_SEEN with a refused NEXT; no command clears either, only reset does. -/
def Obligations.StickyFlagsAreClearedOnlyByReset : Prop :=
  ∀ s s' : State, step s = .next s' →
    (s.inputs = [] → s'.engine.illSeen = s.engine.illSeen ∧ s'.engine.unsSeen = s.engine.unsSeen) ∧
    (∀ rest, s.inputs = .reset :: rest → s'.engine.illSeen = false ∧ s'.engine.unsSeen = false) ∧
    ∀ r t rest, s.inputs = .command r t :: rest →
      s'.engine.illSeen = (s.engine.illSeen || !decide (1 ≤ r.cmd.toNat ∧ r.cmd.toNat ≤ 4)) ∧
      s'.engine.unsSeen = (s.engine.unsSeen || (r.cmd == 0x00000003#32 && !s.engine.seeded))

/-- 10_state.md R24: WSEL is 1 when W = 64 and 0 when W = 32, and no command and no reset changes the configuration. -/
def Obligations.ConfigurationIsHardwired : Prop :=
  (∀ (c : Config) (e : Engine c), (statusWord e).getLsbD 8 = match c with | .w64 _ => true | .w32 _ _ => false) ∧
  ∀ s s' : State, step s = .next s' → s'.config = s.config

/-- 30_encoding.md R44 (and R42 of the draw, 60_exceptions.md R65 of an illegal word): only SEED looks at OPERAND, only SEED_TIME at the
TimeSource value, and two illegal words do the same. SEED's seed is OPERAND, or its low 32 bits when W = 32. -/
def Obligations.OperandAndDrawAreIgnored : Prop :=
  (∀ (s : State) (w : CommandWord) (v v' t : Data), w ≠ 0x00000001#32 →
    step (s.present ⟨w, v⟩ t) = step (s.present ⟨w, v'⟩ t)) ∧
  (∀ (s : State) (w : CommandWord) (v t t' : Data), w ≠ 0x00000002#32 →
    step (s.present ⟨w, v⟩ t) = step (s.present ⟨w, v⟩ t')) ∧
  (∀ (s : State) (w w' : CommandWord) (v v' t t' : Data), w.legal = false → w'.legal = false →
    step (s.present ⟨w, v⟩ t) = step (s.present ⟨w', v'⟩ t')) ∧
  ∀ v : Data, seedWord .w64 v = v ∧ seedWord .w32 v = v.extractLsb' 0 32

/-! ### Reset, idling, and the invariant -/

/-- 70_reset_and_hazards.md R78, 10_state.md R30: reset puts every piece of the engine's state at its reset value, keeps the hardwired
configuration; and the state after reset is that of this block (W = 64, N = 312). The model's own, no rule of the spec: that the
host's responses stay and none is added, and that both lists are empty in `State.reset` (log entry 4). The default constants are
R7's, which the spec takes from general knowledge (log entry 2). -/
def Obligations.ResetRestoresEveryField : Prop :=
  (∀ (s : State) (rest : List Input), s.inputs = .reset :: rest →
    step s = .next
      ⟨s.config, ⟨none, BitVec.ofNat 10 s.config.wordSize.wordCount, false, false, false⟩, rest, s.responses⟩) ∧
  State.reset = ⟨.w64 .default64, ⟨none, 312#10, false, false, false⟩, [], []⟩

/-- 60_exceptions.md R77: between commands the engine is idle and holds its whole state. -/
def Obligations.IdleEngineHoldsItsState : Prop :=
  ∀ s : State, s.inputs = [] → step s = .next s

/-- The state after reset is a valid one, in every configuration. -/
def Obligations.ResetStateIsValid : Prop :=
  State.reset.Valid ∧ ∀ c : Config, (State.resetWith c).Valid

/-- Every step from a valid state goes on, to a valid state: SEEDED tells whether the word file holds values (10_state.md R16, R20), the
cursor stays in `[0, N]` (R17), and is even when W = 32 (41_generation.md R60). No error, no word, no operand stops the machine
(60_exceptions.md R68, 70_reset_and_hazards.md R83). -/
def Obligations.StepGoesOnAndKeepsValidity : Prop :=
  ∀ s : State, s.Valid → ∃ s' : State, step s = .next s' ∧ s'.Valid

/-- 20_memory.md R37, 30_encoding.md R42: from a valid state, after any first `k` of the things the platform presents, exactly those are
gone, and the responses are the earlier ones followed by one for each request among those `k` (none for a reset). Said for every
`k`, it is the issue order: the response to a request is the one that its own step adds, behind those to the requests before it. -/
def Obligations.OneResponsePerRequest : Prop :=
  ∀ (s : State) (k : Nat), s.Valid → k ≤ s.inputs.length →
    ∃ (s' : State) (new : List Response), run k s = .next s' ∧ s'.Valid ∧ s'.inputs = s.inputs.drop k ∧
      s'.responses = s.responses ++ new ∧ new.length = (s.inputs.take k).countP Input.isCommand

/-! ### The micro-operations -/

/-- 40_seeding.md R50: INIT's array, word by word, for every constants record; INIT also leaves `CURSOR = N` and writes no flag. -/
def Obligations.InitFollowsTheRecurrence : Prop :=
  (∀ (ws : WordSize) (p : MTParams ws) (seed : Word ws),
    readWord (initFile p seed) 0 = seed ∧
    ∀ i, 1 ≤ i → i < ws.wordCount →
      readWord (initFile p seed) i =
        p.f * (readWord (initFile p seed) (i - 1) ^^^ (readWord (initFile p seed) (i - 1) >>> (ws.bits - 2))) +
          BitVec.ofNat ws.bits i) ∧
  ∀ (c : Config) (e : Engine c) (seed : Word c.wordSize),
    e.init seed = ⟨some (initFile c.params seed), BitVec.ofNat 10 c.wordSize.wordCount, e.seeded, e.illSeen, e.unsSeen⟩

/-- 40_seeding.md R51: INIT never leaves all N words zero, whatever the constants. -/
def Obligations.InitIsNeverAllZero : Prop :=
  ∀ (ws : WordSize) (p : MTParams ws) (seed : Word ws),
    (seed ≠ 0 → readWord (initFile p seed) 0 ≠ 0) ∧ (seed = 0 → readWord (initFile p seed) 1 = 1) ∧
    initFile p seed ≠ zeroFile ws

/-- 41_generation.md R55, 70_reset_and_hazards.md R80: the array TWIST leaves, word by word. For `i < N - M` the offset word is the old
one, for `i ≥ N - M` the one this twist has written; the next word is the old one but for `i = N - 1`, where it is the new word 0. -/
def Obligations.TwistReadsTheWordsItHasWritten : Prop :=
  ∀ (ws : WordSize) (p : MTParams ws) (mt : WordFile ws) (i : Nat), p.m < ws.wordCount → i < ws.wordCount →
    let new := twist p mt
    let offset := if i + p.m < ws.wordCount then readWord mt (i + p.m) else readWord new (i + p.m - ws.wordCount)
    let following := if i + 1 < ws.wordCount then readWord mt (i + 1) else readWord new 0
    let x := (readWord mt i &&& p.upperMask) ||| (following &&& p.lowerMask)
    readWord new i = offset ^^^ (if x.getLsbD 0 then (x >>> 1) ^^^ p.a else x >>> 1)

/-- 00_scope.md R7: the lower mask holds the low R bits, the upper mask the others, and the two defaults are the table's. -/
def Obligations.ConstantsAreTheTable : Prop :=
  (∀ (ws : WordSize) (p : MTParams ws) (i : Nat), i < ws.bits →
    p.lowerMask.getLsbD i = decide (i < p.r) ∧ p.upperMask.getLsbD i = decide (p.r ≤ i)) ∧
  WordSize.premixShift .w64 = 62 ∧ WordSize.premixShift .w32 = 30 ∧
  MTParams.default64 = ⟨156, 31, 0xB5026F5AA96619E9#64, 29, 0x5555555555555555#64, 17, 0x71D67FFFEDA60000#64, 37,
    0xFFF7EEE000000000#64, 43, 0x5851F42D4C957F2D#64⟩ ∧
  MTParams.default32 = ⟨397, 31, 0x9908B0DF#32, 11, 0xFFFFFFFF#32, 7, 0x9D2C5680#32, 15, 0xEFC60000#32, 18,
    0x6C078965#32⟩ ∧
  MTParams.default64.lowerMask = 0x000000007FFFFFFF#64 ∧ MTParams.default64.upperMask = 0xFFFFFFFF80000000#64 ∧
  MTParams.default32.lowerMask = 0x7FFFFFFF#32 ∧ MTParams.default32.upperMask = 0x80000000#32

/-- 41_generation.md R56: TEMPER is four passes, each said bit by bit: a pass to the right XORs bit `i` with bit `i + k` under the mask,
a pass to the left with bit `i - k`; the last has no mask. `TEMPER(0) = 0`. -/
def Obligations.TemperBitByBit : Prop :=
  ∀ (ws : WordSize) (p : MTParams ws) (y : Word ws),
    ∃ y₁ y₂ y₃ : Word ws,
      (∀ i, i < ws.bits → y₁.getLsbD i = (y.getLsbD i ^^ (y.getLsbD (i + p.u) && p.d.getLsbD i))) ∧
      (∀ i, i < ws.bits → y₂.getLsbD i = (y₁.getLsbD i ^^ (decide (p.s ≤ i) && y₁.getLsbD (i - p.s) && p.b.getLsbD i))) ∧
      (∀ i, i < ws.bits → y₃.getLsbD i = (y₂.getLsbD i ^^ (decide (p.t ≤ i) && y₂.getLsbD (i - p.t) && p.c.getLsbD i))) ∧
      (∀ i, i < ws.bits → (temper p y).getLsbD i = (y₃.getLsbD i ^^ y₃.getLsbD (i + p.l))) ∧
      temper p 0 = 0

/-- 41_generation.md R61: TWIST and TEMPER are linear over GF(2) and fix zero, for every constants record; INIT is not linear, since it
does not take zero to the zero array. -/
def Obligations.TwistAndTemperAreLinear : Prop :=
  ∀ (ws : WordSize) (p : MTParams ws),
    twist p (zeroFile ws) = zeroFile ws ∧
    (∀ a b : WordFile ws, twist p (xorFile a b) = xorFile (twist p a) (twist p b)) ∧
    (∀ y z : Word ws, temper p (y ^^^ z) = temper p y ^^^ temper p z) ∧
    initFile p 0 ≠ zeroFile ws

/-- 41_generation.md R62: each pass with a shift of at least 1 is a bijection, and so is TEMPER. -/
def Obligations.TemperIsABijection : Prop :=
  (∀ (w k : Nat) (m : BitVec w), 1 ≤ k → Function.Bijective (passRight k m) ∧ Function.Bijective (passLeft k m)) ∧
  ∀ (ws : WordSize) (p : MTParams ws), 1 ≤ p.u → 1 ≤ p.s → 1 ≤ p.t → 1 ≤ p.l → Function.Bijective (temper p)

/-! ### Runs -/

/-- 41_generation.md R60: when W = 32 an even cursor stays even, and a NEXT from an even cursor takes both words from one array, at an
even index and the one after it, twisting only before the first. -/
def Obligations.EvenCursorAtWordSize32 : Prop :=
  (∀ s s' : State, s.config.wordSize = .w32 → s.engine.cursor.toNat % 2 = 0 → step s = .next s' →
    s'.engine.cursor.toNat % 2 = 0) ∧
  ∀ (p : MTParams .w32) (order : PairOrder) (e : Engine (.w32 p order)) (mt : WordFile .w32) (r : Request) (t : Data)
      (rest : List Input) (out : List Response), e.seeded = true → e.mt = some mt → e.cursor.toNat % 2 = 0 →
    ∃ (mt' : WordFile .w32) (n : Nat), n % 2 = 0 ∧ n + 1 < 624 ∧
      (e.cursor.toNat < 624 ∧ mt' = mt ∧ n = e.cursor.toNat ∨ 624 ≤ e.cursor.toNat ∧ mt' = twist p mt ∧ n = 0) ∧
      exec .next ⟨.w32 p order, e, .command r t :: rest, out⟩ = .next
        ⟨.w32 p order, { e with mt := some mt', cursor := BitVec.ofNat 10 (n + 2) }, rest,
          out ++ [⟨.ok, pairData order (temper p (readWord mt' n)) (temper p (readWord mt' (n + 1)))⟩]⟩

/-- 10_state.md R28: two engines in equal states, given equal inputs (draws included), give equal new responses and end in equal
states, whatever they have answered before; if one stops, both stop alike. -/
def Obligations.EqualEnginesHaveEqualFutures : Prop :=
  ∀ (k : Nat) (c : Config) (e : Engine c) (ins : List Input) (out₁ out₂ : List Response),
    (∃ (e' : Engine c) (ins' : List Input) (new : List Response),
      run k ⟨c, e, ins, out₁⟩ = .next ⟨c, e', ins', out₁ ++ new⟩ ∧
      run k ⟨c, e, ins, out₂⟩ = .next ⟨c, e', ins', out₂ ++ new⟩) ∨
    ∃ f, run k ⟨c, e, ins, out₁⟩ = .fault f ∧ run k ⟨c, e, ins, out₂⟩ = .fault f

/-- 40_seeding.md R52: after SEED the earlier state has no influence. Two engines of one configuration in any two states, given `SEED v`
and then equal inputs without STATUS (which reports the sticky flags), go on together: equal arrays, cursors and SEEDED, and equal
new responses. -/
def Obligations.SeedErasesTheEarlierState : Prop :=
  ∀ (k : Nat) (c : Config) (e₁ e₂ : Engine c) (v t : Data) (ins : List Input) (out₁ out₂ : List Response),
    (∀ x ∈ ins, Input.issues .status x = false) →
    ∃ (e₁' e₂' : Engine c) (ins' : List Input) (new : List Response),
      run (k + 1) ⟨c, e₁, .command ⟨encode .seed, v⟩ t :: ins, out₁⟩ = .next ⟨c, e₁', ins', out₁ ++ new⟩ ∧
      run (k + 1) ⟨c, e₂, .command ⟨encode .seed, v⟩ t :: ins, out₂⟩ = .next ⟨c, e₂', ins', out₂ ++ new⟩ ∧
      e₁'.mt = e₂'.mt ∧ e₁'.cursor = e₂'.cursor ∧ e₁'.seeded = e₂'.seeded

/-- 41_generation.md R59: the closed form of the output stream when W = 64. After `SEED v`, the k-th NEXT (k ≥ 1), with only NEXT and
STATUS between, answers TEMPER of word `(k-1) mod N` of the array after `⌈k/N⌉` twists, and leaves `CURSOR = ((k-1) mod N) + 1`.
Here `k` is one more than the NEXTs in `mid`, and `⌈k/N⌉` is `(k - 1)/N + 1`. -/
def Obligations.ClosedFormOfTheStream : Prop :=
  ∀ (p : MTParams .w64) (e : Engine (.w64 p)) (v t op t' : Data) (mid rest : List Input) (out : List Response),
    (∀ x ∈ mid, Input.issues .next x = true ∨ Input.issues .status x = true) →
    let k := mid.countP (Input.issues .next) + 1
    ∃ (e' : Engine (.w64 p)) (before : List Response),
      run (mid.length + 2)
          ⟨.w64 p, e, .command ⟨encode .seed, v⟩ t :: (mid ++ .command ⟨encode .next, op⟩ t' :: rest), out⟩ =
        .next ⟨.w64 p, e', rest,
          before ++ [⟨.ok, temper p (readWord ((twist p)^[(k - 1) / 312 + 1] (initFile p v)) ((k - 1) % 312))⟩]⟩ ∧
      e'.cursor.toNat = (k - 1) % 312 + 1

/-! ### Command programs -/

/-- 30_encoding.md R49: the expansions of the pseudo-commands. -/
def Obligations.PseudoCommandsExpand : Prop :=
  ∀ imm : Nat,
    Line.requests (.newSeed imm) = Line.requests (.seed imm) ∧ Line.requests .newTime = Line.requests .seedTime ∧
    Line.requests (.reseed imm) = Line.requests (.seed imm) ∧ Line.requests .nextU64 = Line.requests .next

/-- 30_encoding.md R48: the requests of each line. A seed's literal becomes OPERAND, every other command has OPERAND 0, `NEXT ×k` is k
NEXTs, and `.word` is its word. -/
def Obligations.LinesIssueTheirRequests : Prop :=
  (∀ imm : Nat, imm < 2 ^ 64 → ∃ v : Data, v.toNat = imm ∧ Line.requests (.seed imm) = [⟨0x00000001#32, v⟩]) ∧
  Line.requests .seedTime = [⟨0x00000002#32, 0#64⟩] ∧ Line.requests .next = [⟨0x00000003#32, 0#64⟩] ∧
  Line.requests .status = [⟨0x00000004#32, 0#64⟩] ∧
  (∀ imm : Nat, imm < 2 ^ 32 → ∃ w : CommandWord, w.toNat = imm ∧ Line.requests (.word imm) = [⟨w, 0#64⟩]) ∧
  ∀ k : Nat, assemble [.nextTimes k] = assemble (List.replicate k .next)

/-- 30_encoding.md R48: the text `SEED` with a decimal literal reads as that line exactly when the literal is in `[0, 2^64)`. -/
def Obligations.SeedLineReadsItsLiteral : Prop :=
  ∀ n : Nat, parseLine (['S', 'E', 'E', 'D', ' '] ++ Nat.toDigits 10 n) = if n < 2 ^ 64 then some [.seed n] else none
end

