-- ==== Sys2Proof/Laws/Decode.lean ====
section
/-! SUPPORT. The encoder's words, and the two fields of a word. -/

namespace Sys2Proof

@[simp] theorem encode_seed : encode .seed = 0x00000001#32 := rfl
@[simp] theorem encode_seedTime : encode .seedTime = 0x00000002#32 := rfl
@[simp] theorem encode_next : encode .next = 0x00000003#32 := rfl
@[simp] theorem encode_status : encode .status = 0x00000004#32 := rfl

/-- A word is its two fields. -/
theorem commandWord_eq_fields (w : CommandWord) : w = w.rsvd ++ w.opc := by
  apply BitVec.eq_of_toNat_eq
  simp only [CommandWord.rsvd, CommandWord.opc, BitVec.toNat_append, BitVec.extractLsb'_toNat]
  have := w.isLt
  rw [← Nat.shiftLeft_add_eq_or_of_lt (by omega)]
  simp only [Nat.shiftLeft_eq, Nat.shiftRight_eq_div_pow]
  omega

/-- Two words are the same when their fields are. -/
theorem commandWord_ext {v w : CommandWord} (hr : v.rsvd = w.rsvd) (ho : v.opc = w.opc) : v = w := by
  rw [commandWord_eq_fields v, commandWord_eq_fields w, hr, ho]

end Sys2Proof
end

