-- ==== Sys2Proof/Laws/State.lean ====
section
/-! SUPPORT. One lemma per field per update, so that no later proof unfolds a record update. -/

namespace Sys2Proof.Machine

open Sys2Proof

/-- The 10-bit cursor holds `N` exactly (00_scope.md R8). -/
theorem toNat_ofNat_wordCount (ws : WordSize) : (BitVec.ofNat 10 ws.wordCount).toNat = ws.wordCount := by
  cases ws <;> decide

/-- The same, in the form `simp` gives the left side above. -/
@[simp] theorem wordCount_mod (ws : WordSize) : ws.wordCount % 1024 = ws.wordCount := by
  cases ws <;> decide

section EngineUpdates
variable {c : Config} (e : Engine c) (seed : Word c.wordSize) (v : Data) (err : Error)

@[simp] theorem Engine.init_mt : (e.init seed).mt = some (initFile c.params seed) := rfl
@[simp] theorem Engine.init_cursor : (e.init seed).cursor = BitVec.ofNat 10 c.wordSize.wordCount := rfl
@[simp] theorem Engine.init_seeded : (e.init seed).seeded = e.seeded := rfl
@[simp] theorem Engine.init_illSeen : (e.init seed).illSeen = e.illSeen := rfl
@[simp] theorem Engine.init_unsSeen : (e.init seed).unsSeen = e.unsSeen := rfl

@[simp] theorem Engine.seedFrom_mt : (e.seedFrom v).mt = some (initFile c.params (seedWord c.wordSize v)) := rfl
@[simp] theorem Engine.seedFrom_cursor : (e.seedFrom v).cursor = BitVec.ofNat 10 c.wordSize.wordCount := rfl
@[simp] theorem Engine.seedFrom_seeded : (e.seedFrom v).seeded = true := rfl
@[simp] theorem Engine.seedFrom_illSeen : (e.seedFrom v).illSeen = e.illSeen := rfl
@[simp] theorem Engine.seedFrom_unsSeen : (e.seedFrom v).unsSeen = e.unsSeen := rfl

@[simp] theorem Engine.setSticky_mt : (e.setSticky err).mt = e.mt := by cases err <;> rfl
@[simp] theorem Engine.setSticky_cursor : (e.setSticky err).cursor = e.cursor := by cases err <;> rfl
@[simp] theorem Engine.setSticky_seeded : (e.setSticky err).seeded = e.seeded := by cases err <;> rfl
@[simp] theorem Engine.setSticky_illegal_illSeen : (e.setSticky .illegal).illSeen = true := rfl
@[simp] theorem Engine.setSticky_illegal_unsSeen : (e.setSticky .illegal).unsSeen = e.unsSeen := rfl
@[simp] theorem Engine.setSticky_unseeded_illSeen : (e.setSticky .unseeded).illSeen = e.illSeen := rfl
@[simp] theorem Engine.setSticky_unseeded_unsSeen : (e.setSticky .unseeded).unsSeen = true := rfl

end EngineUpdates

section StateUpdates
variable (s : State) (resp : Resp) (data : Data) (err : Error)

@[simp] theorem State.setEngine_config (e : Engine s.config) : (s.setEngine e).config = s.config := rfl
@[simp] theorem State.setEngine_engine (e : Engine s.config) : (s.setEngine e).engine = e := rfl
@[simp] theorem State.setEngine_inputs (e : Engine s.config) : (s.setEngine e).inputs = s.inputs := rfl
@[simp] theorem State.setEngine_responses (e : Engine s.config) : (s.setEngine e).responses = s.responses := rfl

@[simp] theorem respond_config : (respond resp data s).config = s.config := rfl
@[simp] theorem respond_engine : (respond resp data s).engine = s.engine := rfl
@[simp] theorem respond_inputs : (respond resp data s).inputs = s.inputs.tail := rfl
@[simp] theorem respond_responses : (respond resp data s).responses = s.responses ++ [⟨resp, data⟩] := rfl

@[simp] theorem raise_config : (raise err s).config = s.config := rfl
@[simp] theorem raise_engine : (raise err s).engine = s.engine.setSticky err := rfl
@[simp] theorem raise_inputs : (raise err s).inputs = s.inputs.tail := rfl
@[simp] theorem raise_responses : (raise err s).responses = s.responses ++ [⟨err.resp, 0#64⟩] := rfl

@[simp] theorem applyReset_config : (applyReset s).config = s.config := rfl
@[simp] theorem applyReset_engine : (applyReset s).engine = Engine.reset s.config := rfl
@[simp] theorem applyReset_inputs : (applyReset s).inputs = s.inputs.tail := rfl
@[simp] theorem applyReset_responses : (applyReset s).responses = s.responses := rfl

end StateUpdates

end Sys2Proof.Machine
end

