-- ==== Sys2Proof/Laws/Ops.lean ====
section
/-! SUPPORT. One lemma per shared operation, saying what it can do. -/

namespace Sys2Proof.Machine

open Sys2Proof

section WordFiles
variable {ws : WordSize} (p : MTParams ws) (mt : WordFile ws)

/-- An index below N needs no reduction. -/
theorem readWord_of_lt {i : Nat} (h : i < ws.wordCount) : readWord mt i = mt[i] := by
  simp [readWord, Nat.mod_eq_of_lt h]

/-- A read after a write, at any two indices: the same state word when they agree `mod N`, and otherwise the old word. -/
theorem readWord_writeWord (i j : Nat) (v : Word ws) :
    readWord (writeWord mt i v) j = if i % ws.wordCount = j % ws.wordCount then v else readWord mt j := by
  simp only [readWord, writeWord, Vector.getElem_set]

/-- Two arrays with the same words are the same array. -/
theorem wordFile_ext {a b : WordFile ws} (h : ∀ i, i < ws.wordCount → readWord a i = readWord b i) : a = b := by
  apply Vector.ext
  intro i hi
  have := h i hi
  rwa [readWord_of_lt a hi, readWord_of_lt b hi] at this

/-- INIT's loop, one word at a time. -/
theorem seedWordsFrom_succ (k i : Nat) (q : Word ws) :
    seedWordsFrom p (k + 1) i q = q :: seedWordsFrom p k (i + 1) (seedStep p (i + 1) q) := rfl

/-- The array INIT writes, read as a list. -/
theorem initFile_toList (seed : Word ws) : (initFile p seed).toList = seedWordsFrom p ws.wordCount 0 seed := rfl

/-- Step `k` follows the steps before it. -/
theorem twistSteps_succ (k : Nat) : twistSteps p (k + 1) mt = twistStep p k (twistSteps p k mt) := rfl

/-- One step of TWIST writes its own word and no other. -/
theorem readWord_twistStep_of_ne {i j : Nat} (h : i % ws.wordCount ≠ j % ws.wordCount) :
    readWord (twistStep p i mt) j = readWord mt j := by
  rw [twistStep, readWord_writeWord, if_neg h]

/-- What one step of TWIST writes. -/
theorem readWord_twistStep_self (i : Nat) :
    readWord (twistStep p i mt) i =
      readWord mt (i + p.m) ^^^ twistMix p (maskSplit p (readWord mt i) (readWord mt (i + 1))) := by
  rw [twistStep, readWord_writeWord, if_pos rfl]

/-- The lazy twist runs when the block is used up. -/
theorem refresh_exhausted {cursor : Cursor} (h : ws.wordCount ≤ cursor.toNat) :
    refresh p mt cursor = (twist p mt, 0#10) := if_pos h

/-- The lazy twist does nothing while the block lasts. -/
theorem refresh_fresh {cursor : Cursor} (h : cursor.toNat < ws.wordCount) :
    refresh p mt cursor = (mt, cursor) := if_neg (Nat.not_le.mpr h)

/-- After the lazy twist the cursor names a word of the array. -/
theorem refresh_cursor_lt (cursor : Cursor) : (refresh p mt cursor).2.toNat < ws.wordCount := by
  rcases Nat.lt_or_ge cursor.toNat ws.wordCount with h | h
  · rwa [refresh_fresh p mt h]
  · rw [refresh_exhausted p mt h]
    exact ws.wordCount_pos

/-- RELEASE steps the cursor by one past the released word, without wrapping. -/
theorem release_cursor_toNat (cursor : Cursor) :
    (release p mt cursor).cursor.toNat = (refresh p mt cursor).2.toNat + 1 := by
  have h := refresh_cursor_lt p mt cursor
  have hN := ws.wordCount_le
  simp only [release]
  bv_omega

end WordFiles

/-- A command goes on only with a request on the port. -/
theorem withRequest_next {s s' : State} {k : Request → Data → Host.Outcome State Fault Refusal}
    (h : withRequest s k = .next s') : ∃ r t rest, s.inputs = .command r t :: rest ∧ k r t = .next s' := by
  unfold withRequest at h
  split at h
  · next r t rest hin => exact ⟨r, t, rest, hin, h⟩
  · cases h

/-- A command runs on the request that stands on the port. -/
theorem withRequest_command {s : State} {r : Request} {t : Data} {rest : List Input} (h : s.inputs = .command r t :: rest)
    (k : Request → Data → Host.Outcome State Fault Refusal) : withRequest s k = k r t := by
  simp only [withRequest, h]

end Sys2Proof.Machine
end

