-- ==== Sys2Proof/Laws/PerInstr.lean ====
section
/-! SUPPORT. Statements made per instruction. -/

namespace Sys2Proof.Laws.EncodedFields

open Sys2Proof

/-- The word of a command has its opcode in `[7:0]` and zero in `[31:8]` (30_encoding.md R43), and is a legal word (R45). -/
def Statement (i : Instr) : Prop :=
  CommandWord.opc (encode i) = i.opcode ∧ CommandWord.rsvd (encode i) = 0#24 ∧ CommandWord.legal (encode i) = true

theorem seed : Statement .seed := ⟨rfl, rfl, rfl⟩
theorem seedTime : Statement .seedTime := ⟨rfl, rfl, rfl⟩
theorem next : Statement .next := ⟨rfl, rfl, rfl⟩
theorem status : Statement .status := ⟨rfl, rfl, rfl⟩

end Sys2Proof.Laws.EncodedFields
end

