-- ==== Sys2Proof/Laws/Step.lean ====
section
/-! SUPPORT. What each command and one step can do: if it answers a next state, then one of these cases holds. -/

namespace Sys2Proof.Machine

open Sys2Proof

@[simp] theorem State.present_config (s : State) (r : Request) (t : Data) : (s.present r t).config = s.config := rfl
@[simp] theorem State.present_engine (s : State) (r : Request) (t : Data) : (s.present r t).engine = s.engine := rfl
@[simp] theorem State.present_inputs (s : State) (r : Request) (t : Data) :
    (s.present r t).inputs = .command r t :: s.inputs := rfl
@[simp] theorem State.present_responses (s : State) (r : Request) (t : Data) :
    (s.present r t).responses = s.responses := rfl

variable {s s' : State}

theorem execSeed_cases (h : execSeed s = .next s') :
    ∃ r t rest, s.inputs = .command r t :: rest ∧
      s' = respond .ok 0#64 (s.setEngine (s.engine.seedFrom r.operand)) := by
  obtain ⟨r, t, rest, hin, hk⟩ := withRequest_next h
  exact ⟨r, t, rest, hin, (Host.Outcome.next.inj hk).symm⟩

theorem execSeedTime_cases (h : execSeedTime s = .next s') :
    ∃ r t rest, s.inputs = .command r t :: rest ∧ s' = respond .ok t (s.setEngine (s.engine.seedFrom t)) := by
  obtain ⟨r, t, rest, hin, hk⟩ := withRequest_next h
  exact ⟨r, t, rest, hin, (Host.Outcome.next.inj hk).symm⟩

/-- NEXT raises ERR_UNSEEDED, or releases from an array that holds values. -/
theorem execNext_cases (h : execNext s = .next s') :
    ∃ r t rest, s.inputs = .command r t :: rest ∧
      ((s.engine.seeded = false ∧ s' = raise .unseeded s) ∨
        ∃ mt, s.engine.seeded = true ∧ s.engine.mt = some mt ∧
          s' = respond .ok (nextOutput s.config mt s.engine.cursor).data
            (s.setEngine { s.engine with
              mt := some (nextOutput s.config mt s.engine.cursor).mt
              cursor := (nextOutput s.config mt s.engine.cursor).cursor })) := by
  obtain ⟨r, t, rest, hin, hk⟩ := withRequest_next h
  refine ⟨r, t, rest, hin, ?_⟩
  split at hk
  · next hs =>
    split at hk
    · cases hk
    · next mt hmt => exact .inr ⟨mt, hs, hmt, (Host.Outcome.next.inj hk).symm⟩
  · next hs => exact .inl ⟨by simpa using hs, (Host.Outcome.next.inj hk).symm⟩

theorem execStatus_cases (h : execStatus s = .next s') :
    ∃ r t rest, s.inputs = .command r t :: rest ∧ s' = respond .ok (statusWord s.engine) s := by
  obtain ⟨r, t, rest, hin, hk⟩ := withRequest_next h
  exact ⟨r, t, rest, hin, (Host.Outcome.next.inj hk).symm⟩

/-- A step with nothing presented. -/
theorem step_idle (h : s.inputs = []) : step s = .next s := by
  simp only [step, h]

/-- A step on the reset signal. -/
theorem step_reset {rest : List Input} (h : s.inputs = .reset :: rest) : step s = .next (applyReset s) := by
  simp only [step, h]

/-- A step on a word the decoder rejects. -/
theorem step_illegal {r : Request} {t : Data} {rest : List Input} {why : Illegal} (h : s.inputs = .command r t :: rest)
    (hd : decode r.cmd = .error why) : step s = .next (raise .illegal s) := by
  simp only [step, h, hd]

/-- Everything a step that goes on can be. -/
theorem step_cases (h : step s = .next s') :
    (s.inputs = [] ∧ s' = s) ∨
    (∃ rest, s.inputs = .reset :: rest ∧ s' = applyReset s) ∨
    (∃ r t rest why, s.inputs = .command r t :: rest ∧ decode r.cmd = .error why ∧ s' = raise .illegal s) ∨
    (∃ r t rest i, s.inputs = .command r t :: rest ∧ decode r.cmd = .ok i ∧ exec i s = .next s') := by
  unfold step at h
  split at h
  · next hin => exact .inl ⟨hin, (Host.Outcome.next.inj h).symm⟩
  · next rest hin => exact .inr (.inl ⟨rest, hin, (Host.Outcome.next.inj h).symm⟩)
  · next r t rest hin =>
    split at h
    · next why hd => exact .inr (.inr (.inl ⟨r, t, rest, why, hin, hd, (Host.Outcome.next.inj h).symm⟩))
    · next i hd => exact .inr (.inr (.inr ⟨r, t, rest, i, hin, hd, h⟩))

/-- A run of no steps. -/
theorem run_zero (s : State) : run 0 s = .next s := rfl

/-- A run goes on after a step that goes on. -/
theorem run_succ_of_next (k : Nat) (h : step s = .next s') : run (k + 1) s = run k s' := by
  have hs : Sys2Proof.core.step s = .next s' := h
  simp only [run, Host.Core.run, hs]
  rfl

end Sys2Proof.Machine
end

