-- ==== Sys2Proof/Tests/Slice0.lean ====
section
/-! SUPPORT. Tests of the model, their expected values taken from 95_test_vectors.md (the section or vector is named beside each) or
written out from the rules; and one witness for every statement that has hypotheses. -/

namespace Sys2Proof.Tests.Slice0

open Sys2Proof Sys2Proof.Machine

/-! ### Helpers -/

/-- The state after reset with one request on the port. -/
def fresh (cmd : CommandWord) (operand draw : Data) : State :=
  State.reset.present ⟨cmd, operand⟩ draw

/-- The same in a W = 32 configuration. -/
def fresh32 (order : PairOrder) (cmd : CommandWord) (operand draw : Data) : State :=
  (State.resetWith (.w32 .default32 order)).present ⟨cmd, operand⟩ draw

/-- An engine of this block with a given array, cursor and SEEDED = 1. -/
def seeded (mt : WordFile .w64) (cursor : Cursor) : Engine (.w64 .default64) :=
  ⟨some mt, cursor, true, false, false⟩

/-- A W = 32 engine with a given array, cursor and SEEDED = 1. -/
def seeded32 (order : PairOrder) (mt : WordFile .w32) (cursor : Cursor) : Engine (.w32 .default32 order) :=
  ⟨some mt, cursor, true, false, false⟩

/-- A state of this block with one request on the port. -/
def with64 (e : Engine (.w64 .default64)) (cmd : CommandWord) (operand : Data) : State :=
  ⟨.w64 .default64, e, [.command ⟨cmd, operand⟩ 0#64], []⟩

/-- A W = 32 state with one request on the port. -/
def with32 (order : PairOrder) (e : Engine (.w32 .default32 order)) (cmd : CommandWord) (operand : Data) : State :=
  ⟨.w32 .default32 order, e, [.command ⟨cmd, operand⟩ 0#64], []⟩

/-- What the host sees of an outcome: the code and DATA of the last response. -/
def answer : Host.Outcome State Fault Refusal → Option (BitVec 2 × Data)
  | .next s => s.responses.getLast?.map fun r => (r.resp.code, r.data)
  | _ => none

/-- Cursor, SEEDED, ILL_SEEN and UNS_SEEN after an outcome. -/
def flags : Host.Outcome State Fault Refusal → Option (Cursor × Bool × Bool × Bool)
  | .next s => some (s.engine.cursor, s.engine.seeded, s.engine.illSeen, s.engine.unsSeen)
  | _ => none

/-- Does the machine go on? -/
def goesOn : Host.Outcome State Fault Refusal → Bool
  | .next _ => true
  | _ => false

/-- A word of the array after an outcome, as a natural number. -/
def wordAfter (i : Nat) : Host.Outcome State Fault Refusal → Option Nat
  | .next s => s.engine.mt.map fun mt => (readWord mt i).toNat
  | _ => none

/-! ### What is not well formed -/

theorem test_legal_refuses_zero_word : CommandWord.legal 0x00000000#32 = false := by decide
theorem test_legal_refuses_reserved_bits : CommandWord.legal 0x00000103#32 = false := by decide
theorem test_legal_takes_the_four : ∀ i, CommandWord.legal (encode i) = true := by intro i; cases i <;> decide
theorem test_defaults_are_well_formed : MTParams.default64.wf = true ∧ MTParams.default32.wf = true := by decide
theorem test_params_refuse_offset_zero : { MTParams.default64 with m := 0 }.wf = false := by decide
theorem test_params_refuse_offset_N : { MTParams.default64 with m := 312 }.wf = false := by decide
theorem test_params_refuse_no_lower_bits : { MTParams.default64 with r := 0 }.wf = false := by decide
theorem test_params_refuse_no_upper_bits : { MTParams.default64 with r := 64 }.wf = false := by decide
theorem test_params_refuse_shift_u : { MTParams.default64 with u := 0 }.wf = false := by decide
theorem test_params_refuse_shift_s : { MTParams.default64 with s := 64 }.wf = false := by decide
theorem test_params_refuse_shift_t : { MTParams.default64 with t := 0 }.wf = false := by decide
theorem test_params_refuse_shift_l : { MTParams.default32 with l := 32 }.wf = false := by decide
theorem test_params_refuse_even_constant : { MTParams.default64 with a := 2#64 }.wf = false := by decide
theorem test_line_refuses_wide_seed : (Line.seed (2 ^ 64)).wf = false := by decide
theorem test_line_refuses_wide_new : (Line.newSeed (2 ^ 64)).wf = false := by decide
theorem test_line_refuses_wide_reseed : (Line.reseed (2 ^ 64)).wf = false := by decide
theorem test_line_refuses_wide_word : (Line.word (2 ^ 32)).wf = false := by decide
theorem test_line_refuses_no_repetition : (Line.nextTimes 0).wf = false := by decide

/-! ### Decoding: words written out from R43 and R45 -/

theorem test_decode_seed : decode 0b00000000_00000000_00000000_00000001#32 = .ok .seed := by decide
theorem test_decode_seedTime : decode 0b00000000_00000000_00000000_00000010#32 = .ok .seedTime := by decide
theorem test_decode_next : decode 0b00000000_00000000_00000000_00000011#32 = .ok .next := by decide
theorem test_decode_status : decode 0b00000000_00000000_00000000_00000100#32 = .ok .status := by decide
theorem test_decode_first_undefined : decode 0x00000005#32 = .error .undefinedOpcode := by decide
theorem test_decode_highest_reserved_bit : decode 0x80000001#32 = .error .reservedBits := by decide
theorem test_decodeTableWord_next : decodeTableWord 32 3 = some .next := by decide
theorem test_decodeTableWord_other_length : decodeTableWord 16 3 = none := by decide

/-! ### Micro-operations -/

/-- Section 2, seed 0: `MT[2]` and `MT[311]`. -/
theorem test_init_seed0 : readWord (initFile .default64 0#64) 2 = 0x5851F42D4C957F2F#64 ∧
    readWord (initFile .default64 0#64) 311 = 0xCDE6D1BB67E51A2A#64 := by decide +kernel

/-- Section 2, W = 32, seed 5489: `MT[2]` and `MT[623]`. -/
theorem test_init32_seed5489 : readWord (initFile .default32 5489#32) 2 = 0xAF25F095#32 ∧
    readWord (initFile .default32 5489#32) 623 = 0x04C46D8C#32 := by decide +kernel

/-- Section 3.2, T2: the twist reads the words it has written. -/
theorem test_twist_T2 :
    readWord (twist .default64 (writeWord (zeroFile .w64) 1 1#64)) 156 = 0xB5026F5AA96619E9#64 ∧
    readWord (twist .default64 (writeWord (zeroFile .w64) 1 1#64)) 311 = 0xB5026F5ABDD5151D#64 := by decide +kernel

/-- Section 3.2, T3: the mask split and the offset. -/
theorem test_twist_T3 :
    readWord (twist .default64 (writeWord (zeroFile .w64) 0 0x8000000000000000#64)) 0 = 0x4000000000000000#64 ∧
    readWord (twist .default64 (writeWord (zeroFile .w64) 0 0x8000000000000000#64)) 156 = 0x4000000000000000#64 := by
  decide +kernel

/-- Section 3.2, the W = 32 vector. -/
theorem test_twist32 :
    readWord (twist .default32 (writeWord (zeroFile .w32) 1 1#32)) 454 = 0x9908B0DF#32 ∧
    readWord (twist .default32 (writeWord (zeroFile .w32) 1 1#32)) 623 = 0x958CE8B0#32 := by decide +kernel

/-- Section 4. -/
theorem test_temper : temper .default64 0xFFFFFFFFFFFFFFFF#64 = 0x7BFEEEEFEFA1D577#64 ∧
    temper .default64 0x0123456789ABCDEF#64 = 0x2254DA7001198660#64 := by decide

/-- Section 4, W = 32. -/
theorem test_temper32 : temper .default32 0x12345678#32 = 0x2B7E4A2D#32 ∧
    temper .default32 0x80000000#32 = 0x88102204#32 := by decide

/-! ### Commands, one step each -/

/-- SEED after reset (section 2, seed 5489; R53). -/
theorem test_seed : wordAfter 2 (step (fresh 1#32 5489#64 0#64)) = some 0x9165B5762D1A61AE ∧
    flags (step (fresh 1#32 5489#64 0#64)) = some (312#10, true, false, false) := by decide +kernel

/-- SEED when W = 32 takes the low half of OPERAND (section 7, D15). -/
theorem test_seed32_truncates : wordAfter 1 (step (fresh32 .firstHigh 1#32 0x0000000100001571#64 0#64)) = some 0x4D98EE96 ∧
    answer (step (fresh32 .firstHigh 1#32 0x0000000100001571#64 0#64)) = some (0b00#2, 0#64) := by decide +kernel

/-- SEED_TIME, E12: DATA is the draw, and the array is that of SEED with it (section 2). -/
theorem test_seedTime : answer (step (fresh 2#32 0#64 0xFFFFFFFFFFFFFFFF#64)) = some (0b00#2, 0xFFFFFFFFFFFFFFFF#64) ∧
    wordAfter 1 (step (fresh 2#32 0#64 0xFFFFFFFFFFFFFFFF#64)) = some 0x9EB82F4ACDAA034D := by decide +kernel

/-- NEXT with a used-up block, N2 (section 5, seed 0): a twist, and word 0. -/
theorem test_next_twists :
    answer (step (with64 (seeded (initFile .default64 0#64) 312#10) 3#32 0#64)) = some (0b00#2, 0x28E837C5CB41DC3E#64) ∧
    flags (step (with64 (seeded (initFile .default64 0#64) 312#10) 3#32 0#64)) = some (1#10, true, false, false) := by
  decide +kernel

/-- NEXT of the last word of a block, N3 (section 4 for the value): no twist, and the cursor rests at N. -/
theorem test_next_last_word :
    answer (step (with64 (seeded (writeWord (zeroFile .w64) 311 0x4068070C4A24D178#64) 311#10) 3#32 0xFFFFFFFFFFFFFFFF#64)) =
      some (0b00#2, 0x28E837C5CB41DC3E#64) ∧
    flags (step (with64 (seeded (zeroFile .w64) 311#10) 3#32 0#64)) = some (312#10, true, false, false) := by decide +kernel

/-- NEXT when W = 32, both orders (section 7, P6). -/
theorem test_next32_pairs :
    answer (step (with32 .firstHigh (seeded32 .firstHigh (initFile .default32 5489#32) 624#10) 3#32 0#64)) =
      some (0b00#2, 0xD091BB5C22AE9EF6#64) ∧
    answer (step (with32 .firstLow (seeded32 .firstLow (initFile .default32 5489#32) 624#10) 3#32 0#64)) =
      some (0b00#2, 0x22AE9EF6D091BB5C#64) := by decide +kernel

/-- STATUS after reset, E1 and E11. -/
theorem test_status_after_reset : answer (step (fresh 4#32 0#64 0#64)) = some (0b00#2, 0x0000000001380100#64) ∧
    answer (step (fresh32 .firstLow 4#32 0#64 0#64)) = some (0b00#2, 0x0000000002700000#64) := by decide

/-- STATUS with every flag set, E10; and with a small cursor, R58's example. -/
theorem test_status_fields :
    answer (step (with64 ⟨none, 312#10, true, true, true⟩ 4#32 0#64)) = some (0b00#2, 0x0000000001380107#64) ∧
    answer (step (with64 ⟨none, 2#10, true, false, false⟩ 4#32 0#64)) = some (0b00#2, 0x0000000000020101#64) := by decide

/-! ### Errors and the port -/

/-- E2 and E5: an illegal word sets ILL_SEEN only, and is checked before SEEDED. -/
theorem test_illegal : answer (step (fresh 0x00000103#32 0#64 0#64)) = some (0b01#2, 0#64) ∧
    flags (step (fresh 0x00000103#32 0#64 0#64)) = some (312#10, false, true, false) := by decide

/-- E7: NEXT before any seed. -/
theorem test_unseeded : answer (step (fresh 3#32 0#64 0#64)) = some (0b10#2, 0#64) ∧
    flags (step (fresh 3#32 0#64 0#64)) = some (312#10, false, false, true) := by decide

/-- R78: the reset signal clears the sticky flags and unseeds. -/
theorem test_reset_signal :
    flags (step ⟨.w64 .default64, ⟨some (zeroFile .w64), 5#10, true, true, true⟩, [.reset], []⟩) =
      some (312#10, false, false, false) := by decide +kernel

/-- Each word of the opcode table runs as the first command after reset. -/
theorem test_withFetchWord_runs : goesOn (step (State.reset.withFetchWord 32 1)) = true ∧
    goesOn (step (State.reset.withFetchWord 32 2)) = true ∧ goesOn (step (State.reset.withFetchWord 32 3)) = true ∧
    goesOn (step (State.reset.withFetchWord 32 4)) = true := by decide

/-! ### Command programs (lines of P1, P2, P3, P4) -/

theorem test_parse_seed :
    parseLine ['S', 'E', 'E', 'D', ' ', '5', '4', '8', '9', ' ', ' ', ';', ' ', 'x'] = some [.seed 5489] := by decide
theorem test_parse_word :
    parseLine ['.', 'w', 'o', 'r', 'd', ' ', '0', 'x', '0', '0', '0', '0', '0', '1', '0', '3'] = some [.word 0x103] := by decide
theorem test_parse_repeat : parseLine ['N', 'E', 'X', 'T', ' ', '×', '3', '1', '1'] = some [.nextTimes 311] := by decide
/-- Where a digit separator may stand (R9; the model's choice, log entry 9). -/
theorem test_literal_separators : literal ['5', '_', '_', '0', '_'] = some 50 ∧ literal ['_', '5'] = none ∧
    literal ['0', 'x', '_', '5'] = none := by decide
theorem test_parse_refuses_lower_case : parseLine ['n', 'e', 'x', 't'] = none := by decide
theorem test_parse_program :
    parseProgram [['R', 'E', 'S', 'E', 'E', 'D', ' ', '1'], [';'], ['N', 'E', 'X', 'T']] = some [.reseed 1, .next] := by decide
theorem test_assemble : assemble [.seed 5489, .nextTimes 2, .word 0x103] =
    [⟨1#32, 0x1571#64⟩, ⟨3#32, 0#64⟩, ⟨3#32, 0#64⟩, ⟨0x103#32, 0#64⟩] := by decide

/-! ### Witnesses: for each statement with hypotheses, a state and operands that meet them all -/

/-- `StepRunsTheDecodedCommand`, both clauses. -/
theorem witness_step_runs : (fresh 3#32 0#64 0#64).inputs = [.command ⟨3#32, 0#64⟩ 0#64] ∧ decode 3#32 = .ok .next ∧
    decodeTableWord 32 3 = some .next := by decide

/-- `SeedFillsFromOperand`, `SeedTimeFillsFromTheDraw`, `StatusReportsAndWritesNothing`, `NextReleasesAndTempers` (first clause) and
`UnseededErrorIsForNextOnly` (first clause): a request on the port, each with its own word, the engine unseeded. -/
theorem witness_request : (fresh 1#32 0#64 0#64).inputs = [.command ⟨1#32, 0#64⟩ 0#64] ∧
    (fresh 2#32 0#64 7#64).inputs = [.command ⟨2#32, 0#64⟩ 7#64] ∧ (fresh 3#32 0#64 0#64).inputs = [.command ⟨3#32, 0#64⟩ 0#64] ∧
    (fresh 4#32 0#64 0#64).inputs = [.command ⟨4#32, 0#64⟩ 0#64] ∧ (fresh 3#32 0#64 0#64).engine.seeded = false := by decide

/-- `SeedTimeLeavesTheStateOfSeed`: both commands answer a next state. -/
theorem witness_seedTime_as_seed : goesOn (exec .seedTime (fresh 2#32 0#64 5489#64)) = true ∧
    goesOn (exec .seed (fresh 1#32 5489#64 0#64)) = true := by decide

/-- `NextReleasesAndTempers`, W = 64: seeded, on either side of `CURSOR = N`. -/
theorem witness_next64 : ∀ cursor ∈ [311#10, 312#10, 1023#10],
    (seeded (zeroFile .w64) cursor).seeded = true ∧ (seeded (zeroFile .w64) cursor).mt = some (zeroFile .w64) := by
  intro cursor _; exact ⟨rfl, rfl⟩

/-- `NextReleasesAndTempers` and `EvenCursorAtWordSize32`, W = 32: seeded, at each boundary of the three cases. -/
theorem witness_next32 : ∀ cursor ∈ [622#10, 623#10, 624#10, 1023#10],
    (seeded32 .firstLow (zeroFile .w32) cursor).seeded = true ∧
      (seeded32 .firstLow (zeroFile .w32) cursor).mt = some (zeroFile .w32) := by
  intro cursor _; exact ⟨rfl, rfl⟩

/-- `EvenCursorAtWordSize32`, first clause: an even cursor at W = 32 and a step that goes on. -/
theorem witness_even_cursor : (fresh32 .firstHigh 4#32 0#64 0#64).config.wordSize = .w32 ∧
    (fresh32 .firstHigh 4#32 0#64 0#64).engine.cursor.toNat % 2 = 0 ∧
    goesOn (step (fresh32 .firstHigh 4#32 0#64 0#64)) = true := by decide

/-- `IllegalWordSetsOnlyIllSeen`, each disjunct; and the two illegal words of `OperandAndDrawAreIgnored`. -/
theorem witness_illegal : BitVec.extractLsb' 8 24 0x103#32 ≠ 0#24 ∧
    BitVec.extractLsb' 8 24 0x100#32 ≠ 0#24 ∧
    BitVec.extractLsb' 0 8 0x00#32 ∉ [0x01#8, 0x02#8, 0x03#8, 0x04#8] ∧
    BitVec.extractLsb' 0 8 0x05#32 ∉ [0x01#8, 0x02#8, 0x03#8, 0x04#8] ∧
    CommandWord.legal 0x103#32 = false ∧ CommandWord.legal 5#32 = false ∧
    (3#32 : CommandWord) ≠ 0x00000001#32 ∧ (3#32 : CommandWord) ≠ 0x00000002#32 := by decide

/-- `UnseededErrorIsForNextOnly`, second clause: a step that adds that response. -/
theorem witness_unseeded_response : ∃ s', step (fresh 3#32 0#64 0#64) = .next s' ∧
    s'.responses = (fresh 3#32 0#64 0#64).responses ++ [⟨.errUnseeded, 0#64⟩] := ⟨_, rfl, rfl⟩

/-- `ResponseCodeByPriority`, `StepGoesOnAndKeepsValidity`: valid states with a request, one for each branch. -/
theorem witness_valid : (fresh 5#32 0#64 0#64).Valid ∧ (fresh 3#32 0#64 0#64).Valid ∧
    (fresh32 .firstLow 4#32 0#64 0#64).Valid ∧ (seeded (zeroFile .w64) 312#10).Valid ∧
    (seeded32 .firstLow (zeroFile .w32) 622#10).Valid := by decide +kernel

/-- `OneResponsePerRequest`: a valid state, and `k` at both ends of its range. -/
theorem witness_prefix : (fresh 3#32 0#64 0#64).Valid ∧ ∀ k ∈ [0, 1], k ≤ (fresh 3#32 0#64 0#64).inputs.length := by decide

/-- `FrameOfEveryCommand`: each command answers a next state, NEXT seeded (on either side of its bounds) and unseeded. -/
theorem witness_frame : goesOn (exec .seed (fresh 1#32 0#64 0#64)) = true ∧ goesOn (exec .seedTime (fresh 2#32 0#64 0#64)) = true ∧
    goesOn (exec .next (fresh 3#32 0#64 0#64)) = true ∧ goesOn (exec .status (fresh 4#32 0#64 0#64)) = true ∧
    goesOn (exec .next (with64 (seeded (zeroFile .w64) 311#10) 3#32 0#64)) = true ∧
    goesOn (exec .next (with32 .firstLow (seeded32 .firstLow (zeroFile .w32) 622#10) 3#32 0#64)) = true := by decide

/-- `WritersOfTheWordFile`, `WritersOfSeeded`, `StickyFlagsAreClearedOnlyByReset`, `ConfigurationIsHardwired`,
`ResetRestoresEveryField`, `IdleEngineHoldsItsState`: steps that go on, with nothing presented, with the reset signal, and with each
kind of word. -/
theorem witness_steps : goesOn (step State.reset) = true ∧ State.reset.inputs = [] ∧
    goesOn (step { State.reset with inputs := [.reset] }) = true ∧
    goesOn (step (fresh 1#32 0#64 0#64)) = true ∧ goesOn (step (fresh 2#32 0#64 0#64)) = true ∧
    goesOn (step (fresh 3#32 0#64 0#64)) = true ∧ goesOn (step (fresh 4#32 0#64 0#64)) = true ∧
    goesOn (step (fresh 0x103#32 0#64 0#64)) = true ∧ State.reset.engine.seeded = State.reset.engine.mt.isSome := by decide

/-- `InitFollowsTheRecurrence` and `InitIsNeverAllZero`: the first and last index, and both kinds of seed. -/
theorem witness_init : (1 ≤ 1 ∧ 1 < WordSize.wordCount .w64) ∧ (1 ≤ 311 ∧ 311 < WordSize.wordCount .w64) ∧
    (5489#64 : Word .w64) ≠ 0 ∧ (0#64 : Word .w64) = 0 := by decide

/-- `TwistReadsTheWordsItHasWritten`: the indices where its clauses meet, `N - M - 1`, `N - M` and `N - 1`. -/
theorem witness_twist : MTParams.default64.m < WordSize.wordCount .w64 ∧
    ∀ i ∈ [0, 155, 156, 310, 311], i < WordSize.wordCount .w64 := by decide

/-- `ConstantsAreTheTable`, `TemperBitByBit`: a bit on either side of the lower mask, and the last bit. -/
theorem witness_bits : ∀ i ∈ [30, 31, 63], i < WordSize.bits .w64 := by decide

/-- `TemperIsABijection`: the default shifts are at least 1. -/
theorem witness_shifts : 1 ≤ MTParams.default64.u ∧ 1 ≤ MTParams.default64.s ∧ 1 ≤ MTParams.default64.t ∧
    1 ≤ MTParams.default64.l := by decide

/-- `SeedErasesTheEarlierState`: inputs without STATUS. -/
theorem witness_no_status : ∀ x ∈ [Input.command ⟨3#32, 0#64⟩ 0#64, .reset, .command ⟨2#32, 0#64⟩ 9#64],
    Input.issues .status x = false := by decide

/-- `ClosedFormOfTheStream`: NEXT and STATUS in between. -/
theorem witness_stream : ∀ x ∈ [Input.command ⟨3#32, 0#64⟩ 0#64, .command ⟨4#32, 0#64⟩ 0#64, .command ⟨3#32, 7#64⟩ 0#64],
    Input.issues .next x = true ∨ Input.issues .status x = true := by decide

/-- `LinesIssueTheirRequests`: literals at the top of their ranges. -/
theorem witness_literals : 2 ^ 64 - 1 < 2 ^ 64 ∧ 2 ^ 32 - 1 < 2 ^ 32 := by decide

end Sys2Proof.Tests.Slice0
end

section
/-! The masks of a constants record bit by bit (00_scope.md R7), and the table of the default constants. -/

namespace Sys2Proof

section Masks
variable {ws : WordSize} (p : MTParams ws) (i : Nat)

/-- `2^R - 1` is the low R bits, cut to the word. -/
theorem MTParams.getLsbD_lowerMask :
    p.lowerMask.getLsbD i = (decide (i < ws.bits) && decide (i < p.r)) := by
  rw [MTParams.lowerMask, BitVec.getLsbD_ofNat, Nat.testBit_two_pow_sub_one]

/-- The upper mask is the complement of the lower one within the word. -/
theorem MTParams.getLsbD_upperMask :
    p.upperMask.getLsbD i = (decide (i < ws.bits) && decide (p.r ≤ i)) := by
  rw [MTParams.upperMask, BitVec.getLsbD_xor, BitVec.getLsbD_allOnes, p.getLsbD_lowerMask]
  rcases Nat.lt_or_ge i p.r with h | h
  · simp [h, Nat.not_le.mpr h]
  · simp [h, Nat.not_lt.mpr h]

end Masks

/-- Settles O30: the mask clause is the two bit lemmas above; the rest is R7's table, field by field. -/
theorem constantsAreTheTable : Obligations.ConstantsAreTheTable := by
  refine ⟨fun ws p i hi => ⟨?lower, ?upper⟩, ?q64, ?q32, ?table64, ?table32, ?masks⟩
  case lower => rw [p.getLsbD_lowerMask, decide_eq_true hi, Bool.true_and]
  case upper => rw [p.getLsbD_upperMask, decide_eq_true hi, Bool.true_and]
  case q64 => rfl
  case q32 => rfl
  case table64 => rfl
  case table32 => rfl
  case masks => decide

end Sys2Proof
end

section
/-! The decoder as the inverse of the encoder (30_encoding.md R43, R45). -/

namespace Sys2Proof

@[simp] theorem opc_encode (i : Instr) : CommandWord.opc (encode i) = i.opcode := by cases i <;> rfl
@[simp] theorem rsvd_encode (i : Instr) : CommandWord.rsvd (encode i) = 0#24 := by cases i <;> rfl

theorem decodeOpcode_opcode (i : Instr) : decodeOpcode i.opcode = .ok i := by cases i <;> rfl

theorem eq_opcode_of_decodeOpcode {opc : BitVec 8} {i : Instr} (h : decodeOpcode opc = .ok i) : opc = i.opcode := by
  unfold decodeOpcode at h
  split_ifs at h <;> cases h <;> assumption

theorem decode_encode (i : Instr) : decode (encode i) = .ok i := by
  rw [decode, rsvd_encode, if_neg (not_not_intro rfl), opc_encode, decodeOpcode_opcode]

/-- A word decodes to a command exactly when it is that command's word. -/
theorem decode_eq_ok_iff {w : CommandWord} {i : Instr} : decode w = .ok i ↔ w = encode i := by
  constructor
  · intro h
    unfold decode at h
    split_ifs at h with hr
    exact commandWord_ext (by simpa using hr) (by simpa using eq_opcode_of_decodeOpcode h)
  · rintro rfl
    exact decode_encode i

/-- A rejected word is no command's word. -/
theorem ne_encode_of_decode_error {w : CommandWord} {why : Illegal} (h : decode w = .error why) (i : Instr) :
    w ≠ encode i := by
  rintro rfl
  rw [decode_encode] at h
  cases h

theorem encode_toNat_range (i : Instr) : 1 ≤ (encode i).toNat ∧ (encode i).toNat ≤ 4 := by
  cases i <;> decide

/-- The four command words are the words 1 to 4. -/
theorem exists_eq_encode_iff (w : CommandWord) : (∃ i, w = encode i) ↔ 1 ≤ w.toNat ∧ w.toNat ≤ 4 := by
  constructor
  · rintro ⟨i, rfl⟩
    exact encode_toNat_range i
  · rintro ⟨hlo, hhi⟩
    have hcases : w = 1#32 ∨ w = 2#32 ∨ w = 3#32 ∨ w = 4#32 := by bv_omega
    rcases hcases with h | h | h | h
    · exact ⟨.seed, h⟩
    · exact ⟨.seedTime, h⟩
    · exact ⟨.next, h⟩
    · exact ⟨.status, h⟩

end Sys2Proof
end

section
/-! NEXT's release, case by case (41_generation.md R57): the array and the cursor it leaves, for every cursor. -/

namespace Sys2Proof.Machine

open Sys2Proof

section Release
variable {ws : WordSize} (p : MTParams ws) (mt : WordFile ws) {cursor : Cursor}

/-- RELEASE while the block lasts. -/
theorem release_fresh (h : cursor.toNat < ws.wordCount) :
    release p mt cursor = ⟨readWord mt cursor.toNat, mt, cursor + 1#10⟩ := by
  rw [release, refresh_fresh p mt h]

/-- RELEASE from a used-up block. -/
theorem release_exhausted (h : ws.wordCount ≤ cursor.toNat) :
    release p mt cursor = ⟨readWord (twist p mt) 0, twist p mt, 1#10⟩ := by
  rw [release, refresh_exhausted p mt h]
  rfl

end Release

section WordSize64
variable (p : MTParams .w64) (mt : WordFile .w64) {cursor : Cursor}

theorem nextOutput_w64_fresh (h : cursor.toNat < 312) :
    nextOutput (.w64 p) mt cursor = ⟨temper p (readWord mt cursor.toNat), mt, cursor + 1#10⟩ := by
  simp only [nextOutput, release_fresh p mt h]

theorem nextOutput_w64_exhausted (h : 312 ≤ cursor.toNat) :
    nextOutput (.w64 p) mt cursor = ⟨temper p (readWord (twist p mt) 0), twist p mt, 1#10⟩ := by
  simp only [nextOutput, release_exhausted p mt h]

end WordSize64

section WordSize32
variable (p : MTParams .w32) (order : PairOrder) (mt : WordFile .w32) {cursor : Cursor}

theorem nextOutput_w32_fresh (h : cursor.toNat ≤ 622) :
    nextOutput (.w32 p order) mt cursor =
      ⟨pairData order (temper p (readWord mt cursor.toNat)) (temper p (readWord mt (cursor.toNat + 1))), mt,
        cursor + 2#10⟩ := by
  have hfirst : cursor.toNat < WordSize.w32.wordCount := Nat.lt_succ_of_lt (Nat.lt_succ_of_le h)
  have hnext : (cursor + 1#10).toNat = cursor.toNat + 1 := by bv_omega
  have hsecond : (cursor + 1#10).toNat < WordSize.w32.wordCount := by rw [hnext]; exact Nat.lt_succ_of_le (Nat.succ_le_succ h)
  simp only [nextOutput, release_fresh p mt hfirst, release_fresh p mt hsecond, hnext, BitVec.add_assoc]
  rfl

/-- From the last word of a block the pair straddles the twist. -/
theorem nextOutput_w32_straddling (h : cursor.toNat = 623) :
    nextOutput (.w32 p order) mt cursor =
      ⟨pairData order (temper p (readWord mt 623)) (temper p (readWord (twist p mt) 0)), twist p mt, 1#10⟩ := by
  have hfirst : cursor.toNat < WordSize.w32.wordCount := by rw [h]; decide
  have hsecond : WordSize.w32.wordCount ≤ (cursor + 1#10).toNat := by
    have hnext : (cursor + 1#10).toNat = 624 := by bv_omega
    exact hnext.ge
  simp only [nextOutput, release_fresh p mt hfirst, release_exhausted p mt hsecond, h]

theorem nextOutput_w32_exhausted (h : 624 ≤ cursor.toNat) :
    nextOutput (.w32 p order) mt cursor =
      ⟨pairData order (temper p (readWord (twist p mt) 0)) (temper p (readWord (twist p mt) 1)), twist p mt, 2#10⟩ := by
  have hsecond : (1#10 : Cursor).toNat < WordSize.w32.wordCount := by decide
  simp only [nextOutput, release_exhausted p mt h, release_fresh p _ hsecond]
  rfl

end WordSize32

section AnyConfiguration
variable {c : Config} (mt : WordFile c.wordSize) {cursor : Cursor}

/-- NEXT leaves the array, or twists it once: its two releases at W = 32 never twist twice. -/
theorem nextOutput_mt_cases (cursor : Cursor) :
    (nextOutput c mt cursor).mt = mt ∨ (nextOutput c mt cursor).mt = twist c.params mt := by
  match c, mt with
  | .w64 p, mt =>
    rcases Nat.lt_or_ge cursor.toNat 312 with h | h
    · exact .inl (by rw [nextOutput_w64_fresh p mt h])
    · exact .inr (by rw [nextOutput_w64_exhausted p mt h, Config.params])
  | .w32 p order, mt =>
    rcases Nat.lt_trichotomy cursor.toNat 623 with h | h | h
    · exact .inl (by rw [nextOutput_w32_fresh p order mt (Nat.le_of_lt_succ h)])
    · exact .inr (by rw [nextOutput_w32_straddling p order mt h, Config.params])
    · exact .inr (by rw [nextOutput_w32_exhausted p order mt h, Config.params])

/-- NEXT leaves the array while two words of the block are left. -/
theorem nextOutput_mt_of_succ_lt (h : cursor.toNat + 1 < c.wordSize.wordCount) : (nextOutput c mt cursor).mt = mt := by
  match c, mt, h with
  | .w64 p, mt, h => rw [nextOutput_w64_fresh p mt (Nat.lt_of_succ_lt h)]
  | .w32 p order, mt, h => rw [nextOutput_w32_fresh p order mt (Nat.le_of_lt_succ (Nat.lt_of_succ_lt_succ h))]

/-- At W = 64 NEXT leaves the array while one word of the block is left. -/
theorem nextOutput_mt_of_lt (hw : c.wordSize = .w64) (h : cursor.toNat < c.wordSize.wordCount) :
    (nextOutput c mt cursor).mt = mt := by
  match c, mt, hw, h with
  | .w64 p, mt, _, h => rw [nextOutput_w64_fresh p mt h]

/-- NEXT leaves `CURSOR` in `[0, N]`, from any cursor. -/
theorem nextOutput_cursor_le (cursor : Cursor) : (nextOutput c mt cursor).cursor.toNat ≤ c.wordSize.wordCount := by
  have hle {ws : WordSize} (p : MTParams ws) (mt : WordFile ws) (cursor : Cursor) :
      (release p mt cursor).cursor.toNat ≤ ws.wordCount := by
    rw [release_cursor_toNat]
    exact refresh_cursor_lt p mt cursor
  match c, mt with
  | .w64 p, mt => exact hle p mt cursor
  | .w32 p _, mt => exact hle p _ _

/-- At W = 32 NEXT moves an even `CURSOR` to an even one. -/
theorem nextOutput_cursor_even (hw : c.wordSize = .w32) (h : cursor.toNat % 2 = 0) :
    (nextOutput c mt cursor).cursor.toNat % 2 = 0 := by
  match c, mt, hw with
  | .w32 p order, mt, _ =>
    rcases Nat.lt_or_ge cursor.toNat 624 with hlt | hge
    · rw [nextOutput_w32_fresh p order mt (by omega)]
      bv_omega
    · simp [nextOutput_w32_exhausted p order mt hge]

end AnyConfiguration

end Sys2Proof.Machine
end

section
/-! Each command's meaning, one equation per case (40_seeding.md R53, R54; 41_generation.md R57, R58), and when a meaning stops. -/

namespace Sys2Proof.Machine

open Sys2Proof

/-- A request stands on the port. -/
def State.HasRequest (s : State) : Prop :=
  ∃ r t rest, s.inputs = .command r t :: rest

section Equations
variable {s : State} {r : Request} {t : Data} {rest : List Input} (h : s.inputs = .command r t :: rest)
include h

theorem exec_seed : exec .seed s = .next (respond .ok 0#64 (s.setEngine (s.engine.seedFrom r.operand))) :=
  withRequest_command h _

theorem exec_seedTime : exec .seedTime s = .next (respond .ok t (s.setEngine (s.engine.seedFrom t))) :=
  withRequest_command h _

theorem exec_status : exec .status s = .next (respond .ok (statusWord s.engine) s) :=
  withRequest_command h _

theorem exec_next_unseeded (hs : s.engine.seeded = false) : exec .next s = .next (raise .unseeded s) := by
  rw [exec, execNext, withRequest_command h, if_neg (Bool.eq_false_iff.mp hs)]

theorem exec_next_unwritten (hs : s.engine.seeded = true) (hmt : s.engine.mt = none) :
    exec .next s = .fault .unwrittenWord := by
  rw [exec, execNext, withRequest_command h, if_pos hs, hmt]

theorem exec_next_seeded (hs : s.engine.seeded = true) {mt : WordFile s.config.wordSize} (hmt : s.engine.mt = some mt) :
    exec .next s = .next (respond .ok (nextOutput s.config mt s.engine.cursor).data
      (s.setEngine { s.engine with
        mt := some (nextOutput s.config mt s.engine.cursor).mt
        cursor := (nextOutput s.config mt s.engine.cursor).cursor })) := by
  rw [exec, execNext, withRequest_command h, if_pos hs, hmt]

end Equations

/-- A step on a word that decodes is that command's meaning. -/
theorem step_command {s : State} {r : Request} {t : Data} {rest : List Input} {i : Instr}
    (h : s.inputs = .command r t :: rest) (hd : decode r.cmd = .ok i) : step s = exec i s := by
  simp only [step, h, hd]

/-- A run stops with the fault of its first step. -/
theorem run_succ_of_fault {s : State} {f : Fault} (k : Nat) (h : step s = .fault f) : run (k + 1) s = .fault f := by
  have hs : Sys2Proof.core.step s = .fault f := h
  simp only [run, Host.Core.run, hs]
  rfl

/-- Without a request on the port a command does not run. -/
theorem withRequest_of_not_hasRequest {s : State} (h : ¬ s.HasRequest)
    (k : Request → Data → Host.Outcome State Fault Refusal) : withRequest s k = .fault .noRequest := by
  unfold withRequest
  split
  · next r t rest hin => exact absurd ⟨r, t, rest, hin⟩ h
  · rfl

theorem exec_of_not_hasRequest {s : State} (h : ¬ s.HasRequest) (i : Instr) : exec i s = .fault .noRequest := by
  cases i <;> exact withRequest_of_not_hasRequest h _

/-- On a request a command goes on, but for a NEXT that would read a word that holds no value. -/
theorem exec_of_hasRequest {s : State} (h : s.HasRequest) (i : Instr) :
    (¬ (i = .next ∧ s.engine.seeded = true ∧ s.engine.mt = none) ∧ ∃ s', exec i s = .next s') ∨
    ((i = .next ∧ s.engine.seeded = true ∧ s.engine.mt = none) ∧ exec i s = .fault .unwrittenWord) := by
  obtain ⟨r, t, rest, hin⟩ := h
  cases i with
  | seed => exact .inl ⟨by simp, _, exec_seed hin⟩
  | seedTime => exact .inl ⟨by simp, _, exec_seedTime hin⟩
  | status => exact .inl ⟨by simp, _, exec_status hin⟩
  | next =>
    cases hs : s.engine.seeded with
    | false => exact .inl ⟨by simp, _, exec_next_unseeded hin hs⟩
    | true =>
      cases hmt : s.engine.mt with
      | none => exact .inr ⟨by simp, exec_next_unwritten hin hs hmt⟩
      | some mt => exact .inl ⟨by simp, _, exec_next_seeded hin hs hmt⟩

/-- Settles O15: with no request on the port the one fault, with a request the other or none. -/
theorem whenAMeaningStops : Obligations.WhenAMeaningStops := by
  intro i s
  have hport : (∀ r t rest, s.inputs ≠ .command r t :: rest) ↔ ¬ s.HasRequest := by simp [State.HasRequest]
  rw [hport]
  change _ ∧ (_ ↔ i = .next ∧ s.engine.seeded = true ∧ s.engine.mt = none ∧ s.HasRequest) ∧ _
  by_cases h : s.HasRequest
  · rcases exec_of_hasRequest h i with ⟨hw, s', he⟩ | ⟨⟨rfl, hs, hmt⟩, he⟩
    · simpa [he, h] using hw
    · simp [he, h, hs, hmt]
  · simp [exec_of_not_hasRequest h i, h]

end Sys2Proof.Machine
end

section
/-! What a command and a step do to the engine: one relation each, with a case for each way. -/

namespace Sys2Proof.Machine

open Sys2Proof

/-- The ways a command changes the engine, on a request with OPERAND `v` and draw `t`. -/
inductive ExecEngine {c : Config} (e : Engine c) (v t : Data) : Instr → Engine c → Prop
  | seed : ExecEngine e v t .seed (e.seedFrom v)
  | seedTime : ExecEngine e v t .seedTime (e.seedFrom t)
  | unseeded (hs : e.seeded = false) : ExecEngine e v t .next (e.setSticky .unseeded)
  | released (mt : WordFile c.wordSize) (hs : e.seeded = true) (hmt : e.mt = some mt) :
      ExecEngine e v t .next
        { e with mt := some (nextOutput c mt e.cursor).mt, cursor := (nextOutput c mt e.cursor).cursor }
  | status : ExecEngine e v t .status e

/-- The ways a step changes the engine, on the inputs that are to come. -/
inductive StepEngine {c : Config} (e : Engine c) : List Input → Engine c → Prop
  | idle : StepEngine e [] e
  | reset (rest : List Input) : StepEngine e (.reset :: rest) (Engine.reset c)
  | illegal (r : Request) (t : Data) (rest : List Input) (hw : ∀ i, r.cmd ≠ encode i) :
      StepEngine e (.command r t :: rest) (e.setSticky .illegal)
  | command (r : Request) (t : Data) (rest : List Input) (i : Instr) (e' : Engine c) (hw : r.cmd = encode i)
      (he : ExecEngine e r.operand t i e') : StepEngine e (.command r t :: rest) e'

variable {s s' : State}

/-- A command that goes on takes its request, gives one response, and changes the engine in one of the ways above. -/
theorem execEngine_of_exec {i : Instr} (h : exec i s = .next s') :
    ∃ r t rest e' resp, s.inputs = .command r t :: rest ∧
      s' = ⟨s.config, e', s.inputs.tail, s.responses ++ [resp]⟩ ∧ ExecEngine s.engine r.operand t i e' := by
  cases i with
  | seed =>
    obtain ⟨r, t, rest, hin, rfl⟩ := execSeed_cases h
    exact ⟨r, t, rest, _, _, hin, rfl, .seed⟩
  | seedTime =>
    obtain ⟨r, t, rest, hin, rfl⟩ := execSeedTime_cases h
    exact ⟨r, t, rest, _, _, hin, rfl, .seedTime⟩
  | next =>
    obtain ⟨r, t, rest, hin, ⟨hs, rfl⟩ | ⟨mt, hs, hmt, rfl⟩⟩ := execNext_cases h
    · exact ⟨r, t, rest, _, _, hin, rfl, .unseeded hs⟩
    · exact ⟨r, t, rest, _, _, hin, rfl, .released mt hs hmt⟩
  | status =>
    obtain ⟨r, t, rest, hin, rfl⟩ := execStatus_cases h
    exact ⟨r, t, rest, _, _, hin, rfl, .status⟩

/-- A step that goes on keeps the configuration and changes the engine in one of the ways above. -/
theorem stepEngine_of_step (h : step s = .next s') :
    ∃ e', s' = ⟨s.config, e', s'.inputs, s'.responses⟩ ∧ StepEngine s.engine s.inputs e' := by
  rcases step_cases h with ⟨hin, rfl⟩ | ⟨rest, hin, rfl⟩ | ⟨r, t, rest, why, hin, hd, rfl⟩ | ⟨r, t, rest, i, hin, hd, he⟩
  · exact ⟨_, rfl, hin ▸ .idle⟩
  · exact ⟨_, rfl, hin ▸ .reset rest⟩
  · exact ⟨_, rfl, hin ▸ .illegal r t rest (ne_encode_of_decode_error hd)⟩
  · obtain ⟨r', t', rest', e', resp, hin', rfl, hexec⟩ := execEngine_of_exec he
    obtain ⟨⟨rfl, rfl⟩, rfl⟩ : (r = r' ∧ t = t') ∧ rest = rest' := by simpa [hin] using hin'
    exact ⟨e', rfl, hin ▸ .command r t rest i e' (decode_eq_ok_iff.mp hd) hexec⟩

end Sys2Proof.Machine
end

section
/-! The frame of each command and the writers of each piece of the engine's state (10_state.md R15, R20, R21), read off the cases
above. -/

namespace Sys2Proof.Machine

open Sys2Proof

/-- Settles O16: each clause is read off the one way its command changes the engine. -/
theorem frameOfEveryCommand : Obligations.FrameOfEveryCommand := by
  intro i s s' h
  obtain ⟨r, t, rest, e', resp, -, rfl, he⟩ := execEngine_of_exec h
  refine ⟨e', resp, rfl, ?_⟩
  cases he with
  | seed => simp
  | seedTime => simp
  | status => simp
  | unseeded hs => simp [hs, Engine.setSticky]
  | released mt hs hmt =>
    refine ⟨rfl, by simp, by simp, by simp, by simp [hs], by simp, fun _ hlt => ?twoLeft, fun _ hw hlt => ?oneLeft⟩
    case twoLeft => rw [hmt, nextOutput_mt_of_succ_lt mt hlt]
    case oneLeft => rw [hmt, nextOutput_mt_of_lt mt hw hlt]

/-- Settles O17: INIT, the reset signal and NEXT's twist are the only writers among the cases of a step. -/
theorem writersOfTheWordFile : Obligations.WritersOfTheWordFile := by
  intro s s' h
  obtain ⟨e', hs', hstep⟩ := stepEngine_of_step h
  refine ⟨e', hs', ?_⟩
  generalize s.inputs = ins at hstep ⊢
  cases hstep with
  | idle => simp
  | reset => simp [Engine.reset]
  | illegal r t rest hw =>
    refine ⟨by simp, by simp, ?_⟩
    rintro _ _ _ ⟨⟩
    exact ⟨fun h => absurd h (hw .seed), fun h => absurd h (hw .seedTime), fun _ => .inl rfl, fun _ _ _ => rfl⟩
  | command r t rest i _ hw he =>
    refine ⟨by simp, by simp, ?_⟩
    rintro _ _ _ ⟨⟩
    rw [hw]
    cases he with
    | seed => simp
    | seedTime => simp
    | unseeded hs => simp
    | released mt hs hmt => simpa [hs, hmt] using nextOutput_mt_cases mt s.engine.cursor
    | status => simp

/-- Settles O18: a NEXT that releases finds SEEDED and the word file set and leaves them so; SEED and SEED_TIME set both. -/
theorem writersOfSeeded : Obligations.WritersOfSeeded := by
  intro s s' h
  obtain ⟨e', hs', hstep⟩ := stepEngine_of_step h
  rw [hs']
  generalize s.inputs = ins at hstep ⊢
  cases hstep with
  | idle => simp
  | reset => simp [Engine.reset]
  | illegal r t rest hw =>
    have hseed : r.cmd ≠ 0x00000001#32 := hw .seed
    have hseedTime : r.cmd ≠ 0x00000002#32 := hw .seedTime
    refine ⟨by simp, by simp, ?_, by simp⟩
    rintro _ _ _ ⟨⟩
    simp [beq_false_of_ne hseed, beq_false_of_ne hseedTime]
  | command r t rest i _ hw he =>
    refine ⟨by simp, by simp, ?_, ?_⟩
    · rintro _ _ _ ⟨⟩
      rw [hw]
      cases he with
      | seed => simp
      | seedTime => simp
      | unseeded hs => simp
      | released mt hs hmt => simp
      | status => simp
    · cases he with
      | seed => simp
      | seedTime => simp
      | unseeded hs => simp
      | released mt hs hmt => simp [hs]
      | status => exact id

/-- Settles O19: an illegal word is one outside 1 to 4, and only a NEXT that finds SEEDED = 0 sets the other flag. -/
theorem stickyFlagsAreClearedOnlyByReset : Obligations.StickyFlagsAreClearedOnlyByReset := by
  intro s s' h
  obtain ⟨e', hs', hstep⟩ := stepEngine_of_step h
  rw [hs']
  generalize s.inputs = ins at hstep ⊢
  cases hstep with
  | idle => simp
  | reset => simp [Engine.reset]
  | illegal r t rest hw =>
    have hrange : ¬ (1 ≤ r.cmd.toNat ∧ r.cmd.toNat ≤ 4) := by
      rw [← exists_eq_encode_iff]
      exact fun ⟨i, hi⟩ => hw i hi
    have hnext : r.cmd ≠ 0x00000003#32 := hw .next
    refine ⟨by simp, by simp, ?_⟩
    rintro _ _ _ ⟨⟩
    simp [decide_eq_false hrange, beq_false_of_ne hnext]
  | command r t rest i _ hw he =>
    refine ⟨by simp, by simp, ?_⟩
    rintro _ _ _ ⟨⟩
    rw [hw, decide_eq_true (encode_toNat_range i)]
    cases he with
    | seed => simp
    | seedTime => simp
    | unseeded hs => simp [hs]
    | released mt hs hmt => simp [hs]
    | status => simp

end Sys2Proof.Machine
end

section
/-! The fields of the STATUS word (10_state.md R23, R24). -/

namespace Sys2Proof.Machine

open Sys2Proof

theorem wsel_eq_decide (ws : WordSize) : wsel ws = decide (ws = .w64) := by cases ws <;> rfl

section Bits
variable {c : Config} (e : Engine c)

/-- The low half of the STATUS word holds the three flags and, at bit 8, WSEL. -/
theorem getLsbD_statusWord_of_lt {i : Nat} (hi : i < 16) :
    (statusWord e).getLsbD i =
      if i = 0 then e.seeded else if i = 1 then e.illSeen else if i = 2 then e.unsSeen
      else if i = 8 then decide (c.wordSize = .w64) else false := by
  simp only [statusWord, BitVec.getLsbD_setWidth, BitVec.getLsbD_append, BitVec.getLsbD_ofBool, BitVec.getLsbD_zero,
    wsel_eq_decide]
  interval_cases i <;> rfl

/-- From bit 16 on the STATUS word is the cursor, extended with zeros. -/
theorem getLsbD_statusWord_add (i : Nat) : (statusWord e).getLsbD (16 + i) = e.cursor.getLsbD i := by
  rcases Nat.lt_or_ge i 10 with hi | hi
  · simp only [statusWord, BitVec.getLsbD_setWidth, BitVec.getLsbD_append]
    interval_cases i <;> rfl
  · simp only [statusWord, BitVec.getLsbD_setWidth]
    rw [BitVec.getLsbD_of_ge _ (16 + i) (by omega), BitVec.getLsbD_of_ge e.cursor i hi, Bool.and_false]

end Bits

/-- Settles O10: each field is the bits of R23 that it spans. -/
theorem statusWordFields : Obligations.StatusWordFields := by
  intro c e
  refine ⟨getLsbD_statusWord_of_lt e (by decide), getLsbD_statusWord_of_lt e (by decide),
    getLsbD_statusWord_of_lt e (by decide), ?low, getLsbD_statusWord_of_lt e (by decide), ?mid, ?cursor, ?high⟩
  all_goals
    apply BitVec.eq_of_getLsbD_eq
    intro i hi
    rw [BitVec.getLsbD_extractLsb', decide_eq_true hi, Bool.true_and]
  case low =>
    rw [getLsbD_statusWord_of_lt e (by omega)]
    interval_cases i <;> rfl
  case mid =>
    rw [getLsbD_statusWord_of_lt e (by omega)]
    interval_cases i <;> rfl
  case cursor => exact getLsbD_statusWord_add e i
  case high =>
    rw [show 26 + i = 16 + (10 + i) by omega, getLsbD_statusWord_add, BitVec.getLsbD_of_ge e.cursor _ (by omega),
      BitVec.getLsbD_zero]

/-- Settles O20: bit 8 is O10's, and every case of a step has the old configuration. -/
theorem configurationIsHardwired : Obligations.ConfigurationIsHardwired := by
  refine ⟨fun c e => ?bit, fun s s' h => ?config⟩
  case bit =>
    obtain ⟨-, -, -, -, hwsel, -⟩ := statusWordFields c e
    rw [hwsel]
    cases c <;> rfl
  case config =>
    obtain ⟨e', hs', -⟩ := stepEngine_of_step h
    rw [hs']

end Sys2Proof.Machine
end

section
/-! The invariant of the states an engine can rest in (10_state.md R16, R17, R20; 41_generation.md R60): reset meets it, every step keeps
it, and from it every step goes on. -/

namespace Sys2Proof.Machine

open Sys2Proof

section Engines
variable {c : Config} {e e' : Engine c}

/-- A used-up block, `CURSOR = N`, is a place for the cursor to rest. -/
theorem Engine.valid_of_cursor_eq_wordCount (hs : e.seeded = e.mt.isSome)
    (hcursor : e.cursor = BitVec.ofNat 10 c.wordSize.wordCount) : e.Valid := by
  have hN : e.cursor.toNat = c.wordSize.wordCount := by rw [hcursor, toNat_ofNat_wordCount]
  exact ⟨hs, hN.le, fun _ => by rw [hN, WordSize.wordCount_even]⟩

theorem Engine.reset_valid (c : Config) : (Engine.reset c).Valid :=
  Engine.valid_of_cursor_eq_wordCount rfl rfl

theorem Engine.seedFrom_valid (v : Data) : (e.seedFrom v).Valid :=
  Engine.valid_of_cursor_eq_wordCount rfl rfl

theorem Engine.setSticky_valid (err : Error) (h : e.Valid) : (e.setSticky err).Valid := by
  simpa [Engine.Valid] using h

theorem Engine.released_valid (mt : WordFile c.wordSize) (hs : e.seeded = true) (h : e.Valid) :
    Engine.Valid { e with mt := some (nextOutput c mt e.cursor).mt, cursor := (nextOutput c mt e.cursor).cursor } := by
  obtain ⟨-, -, heven⟩ := h
  exact ⟨hs, nextOutput_cursor_le mt e.cursor, fun hw => nextOutput_cursor_even mt hw (heven hw)⟩

theorem ExecEngine.valid {v t : Data} {i : Instr} (he : ExecEngine e v t i e') (h : e.Valid) : e'.Valid := by
  cases he with
  | seed => exact Engine.seedFrom_valid v
  | seedTime => exact Engine.seedFrom_valid t
  | unseeded hs => exact Engine.setSticky_valid .unseeded h
  | released mt hs hmt => exact Engine.released_valid mt hs h
  | status => exact h

theorem StepEngine.valid {ins : List Input} (hstep : StepEngine e ins e') (h : e.Valid) : e'.Valid := by
  cases hstep with
  | idle => exact h
  | reset => exact Engine.reset_valid c
  | illegal r t rest hw => exact Engine.setSticky_valid .illegal h
  | command r t rest i _ hw he => exact he.valid h

end Engines

/-- Settles O24: after reset the engine is a valid one, whatever its configuration. -/
theorem resetStateIsValid : Obligations.ResetStateIsValid :=
  ⟨Engine.reset_valid Config.block, Engine.reset_valid⟩

variable {s s' : State}

theorem step_keeps_valid (h : s.Valid) (hstep : step s = .next s') : s'.Valid := by
  obtain ⟨e', hs', he⟩ := stepEngine_of_step hstep
  rw [hs']
  exact he.valid h

/-- A step goes on whenever SEEDED tells whether the word file holds values. -/
theorem step_goes_on (h : s.engine.seeded = s.engine.mt.isSome) : ∃ s', step s = .next s' := by
  match hin : s.inputs with
  | [] => exact ⟨_, step_idle hin⟩
  | .reset :: rest => exact ⟨_, step_reset hin⟩
  | .command r t :: rest =>
    match hd : decode r.cmd with
    | .error why => exact ⟨_, step_illegal hin hd⟩
    | .ok i =>
      rw [step_command hin hd]
      rcases exec_of_hasRequest ⟨r, t, rest, hin⟩ i with ⟨-, hnext⟩ | ⟨⟨-, hs, hmt⟩, -⟩
      · exact hnext
      · simp [hs, hmt] at h

/-- Settles O25: progress and preservation. -/
theorem stepGoesOnAndKeepsValidity : Obligations.StepGoesOnAndKeepsValidity := by
  intro s h
  obtain ⟨s', hs'⟩ := step_goes_on h.1
  exact ⟨s', hs', step_keeps_valid h hs'⟩

end Sys2Proof.Machine
end

section
/-! Equal engines have equal futures (10_state.md R28): no step looks at the responses already given. -/

namespace Sys2Proof.Machine

open Sys2Proof

/-- What `f` makes of one engine and its inputs does not depend on the responses already given: the same engine, inputs left and new
responses, or the same fault, after any earlier ones. -/
def IgnoresResponses (f : State → Host.Outcome State Fault Refusal) (c : Config) (e : Engine c) (ins : List Input) : Prop :=
  (∃ (e' : Engine c) (ins' : List Input) (new : List Response),
    ∀ out, f ⟨c, e, ins, out⟩ = .next ⟨c, e', ins', out ++ new⟩) ∨
  ∃ r, ∀ out, f ⟨c, e, ins, out⟩ = .fault r

variable {c : Config}

theorem exec_ignoresResponses (i : Instr) (e : Engine c) (r : Request) (t : Data) (rest : List Input) :
    IgnoresResponses (exec i) c e (.command r t :: rest) := by
  cases i with
  | seed => exact .inl ⟨e.seedFrom r.operand, rest, [⟨.ok, 0#64⟩], fun _ => exec_seed rfl⟩
  | seedTime => exact .inl ⟨e.seedFrom t, rest, [⟨.ok, t⟩], fun _ => exec_seedTime rfl⟩
  | status => exact .inl ⟨e, rest, [⟨.ok, statusWord e⟩], fun _ => exec_status rfl⟩
  | next =>
    cases hs : e.seeded with
    | false => exact .inl ⟨e.setSticky .unseeded, rest, [⟨.errUnseeded, 0#64⟩], fun _ => exec_next_unseeded rfl hs⟩
    | true =>
      cases hmt : e.mt with
      | none => exact .inr ⟨.unwrittenWord, fun _ => exec_next_unwritten rfl hs hmt⟩
      | some mt =>
        exact .inl ⟨{ e with mt := some (nextOutput c mt e.cursor).mt, cursor := (nextOutput c mt e.cursor).cursor }, rest,
          [⟨.ok, (nextOutput c mt e.cursor).data⟩], fun _ => exec_next_seeded rfl hs hmt⟩

theorem step_ignoresResponses (e : Engine c) (ins : List Input) : IgnoresResponses step c e ins := by
  match ins with
  | [] => exact .inl ⟨e, [], [], fun out => by rw [List.append_nil, step_idle rfl]⟩
  | .reset :: rest => exact .inl ⟨Engine.reset c, rest, [], fun out => by rw [List.append_nil, step_reset rfl]; rfl⟩
  | .command r t :: rest =>
    match hd : decode r.cmd with
    | .error why => exact .inl ⟨e.setSticky .illegal, rest, [⟨.errIllegal, 0#64⟩], fun _ => step_illegal rfl hd⟩
    | .ok i =>
      have hstep (out : List Response) : step ⟨c, e, .command r t :: rest, out⟩ = exec i ⟨c, e, .command r t :: rest, out⟩ :=
        step_command rfl hd
      simpa only [IgnoresResponses, hstep] using exec_ignoresResponses i e r t rest

theorem run_ignoresResponses (k : Nat) (e : Engine c) (ins : List Input) : IgnoresResponses (run k) c e ins := by
  induction k generalizing e ins with
  | zero => exact .inl ⟨e, ins, [], fun out => by rw [List.append_nil, run_zero]⟩
  | succ k ih =>
    rcases step_ignoresResponses e ins with ⟨e₁, ins₁, new₁, h₁⟩ | ⟨f, hf⟩
    · rcases ih e₁ ins₁ with ⟨e₂, ins₂, new₂, h₂⟩ | ⟨f, hf⟩
      · exact .inl ⟨e₂, ins₂, new₁ ++ new₂, fun out => by
          rw [run_succ_of_next k (h₁ out), h₂, List.append_assoc]⟩
      · exact .inr ⟨f, fun out => by rw [run_succ_of_next k (h₁ out), hf]⟩
    · exact .inr ⟨f, fun out => run_succ_of_fault k (hf out)⟩

/-- Settles O35: one run, after either of the two lists of earlier responses. -/
theorem equalEnginesHaveEqualFutures : Obligations.EqualEnginesHaveEqualFutures := by
  intro k c e ins out₁ out₂
  rcases run_ignoresResponses k e ins with ⟨e', ins', new, h⟩ | ⟨f, h⟩
  · exact .inl ⟨e', ins', new, h out₁, h out₂⟩
  · exact .inr ⟨f, h out₁, h out₂⟩

end Sys2Proof.Machine
end

section
/-! The port over a run (20_memory.md R37, 30_encoding.md R42): each step takes one input and answers it when it is a request. -/

namespace Sys2Proof.Machine

open Sys2Proof

variable {s s' : State}

@[simp] theorem Input.isCommand_command (r : Request) (t : Data) : Input.isCommand (.command r t) = true := rfl
@[simp] theorem Input.isCommand_reset : Input.isCommand .reset = false := rfl

/-- `s'` follows `s` by `k` inputs taken, with one new response for each request among them. With fewer than `k` inputs to come, all
of them are taken. -/
def Answered (k : Nat) (s s' : State) : Prop :=
  s'.inputs = s.inputs.drop k ∧
    ∃ new, s'.responses = s.responses ++ new ∧ new.length = (s.inputs.take k).countP Input.isCommand

theorem answered_zero (s : State) : Answered 0 s s :=
  ⟨rfl, [], (List.append_nil _).symm, rfl⟩

/-- The responses to the inputs taken first stand before those to the inputs taken after them. -/
theorem Answered.trans {j k : Nat} {s₁ : State} (h₁ : Answered j s s₁) (h₂ : Answered k s₁ s') :
    Answered (j + k) s s' := by
  obtain ⟨hin₁, new₁, hout₁, hlen₁⟩ := h₁
  obtain ⟨hin₂, new₂, hout₂, hlen₂⟩ := h₂
  refine ⟨?inputs, new₁ ++ new₂, ?responses, ?count⟩
  case inputs => rw [hin₂, hin₁, List.drop_drop]
  case responses => rw [hout₂, hout₁, List.append_assoc]
  case count => rw [List.length_append, hlen₁, hlen₂, hin₁, List.take_add, List.countP_append]

/-- A command that goes on answers the request it takes. -/
theorem answered_of_exec {i : Instr} (h : exec i s = .next s') : Answered 1 s s' := by
  obtain ⟨r, t, rest, e', resp, hin, rfl, -⟩ := execEngine_of_exec h
  exact ⟨List.drop_one.symm, [resp], rfl, by simp [hin]⟩

theorem answered_of_step (h : step s = .next s') : Answered 1 s s' := by
  rcases step_cases h with ⟨hin, rfl⟩ | ⟨rest, hin, rfl⟩ | ⟨r, t, rest, why, hin, -, rfl⟩ | ⟨r, t, rest, i, -, -, he⟩
  · exact ⟨by simp [hin], [], (List.append_nil _).symm, by simp [hin]⟩
  · exact ⟨List.drop_one.symm, [], (List.append_nil _).symm, by simp [hin]⟩
  · exact ⟨List.drop_one.symm, [⟨.errIllegal, 0#64⟩], rfl, by simp [hin]⟩
  · exact answered_of_exec he

/-- From a valid state any number of steps goes on to a valid state, the inputs taken answered. -/
theorem run_answered (k : Nat) (h : s.Valid) : ∃ s', run k s = .next s' ∧ s'.Valid ∧ Answered k s s' := by
  induction k generalizing s with
  | zero => exact ⟨s, run_zero s, h, answered_zero s⟩
  | succ k ih =>
    obtain ⟨s₁, hstep, hvalid₁⟩ := stepGoesOnAndKeepsValidity s h
    obtain ⟨s', hrun, hvalid, hrest⟩ := ih hvalid₁
    have hall : Answered (k + 1) s s' := Nat.add_comm 1 k ▸ (answered_of_step hstep).trans hrest
    exact ⟨s', (run_succ_of_next k hstep).trans hrun, hvalid, hall⟩

/-- Settles O26, by induction on the number of steps: each takes and answers one input, and the answers append in issue order. The
bound on `k` is not needed, since the idle engine takes nothing more. -/
theorem oneResponsePerRequest : Obligations.OneResponsePerRequest := by
  intro s k h _
  obtain ⟨s', hrun, hvalid, hin, new, hout, hlen⟩ := run_answered k h
  exact ⟨s', new, hrun, hvalid, hin, hout, hlen⟩

end Sys2Proof.Machine
end

section
/-! The decoder's rejections by name (30_encoding.md R43, R46), and the step on a decoded word (R42; 20_memory.md R37). -/

namespace Sys2Proof

/-- The reserved field is zero exactly in the words below 256. -/
theorem rsvd_eq_zero_iff (w : CommandWord) : w.rsvd = 0#24 ↔ w.toNat < 256 := by
  have hrsvd : w.rsvd.toNat = w.toNat / 256 := by
    have := w.isLt
    simp only [CommandWord.rsvd, BitVec.extractLsb'_toNat, Nat.shiftRight_eq_div_pow]
    omega
  rw [← BitVec.toNat_inj, hrsvd, BitVec.toNat_ofNat]
  omega

/-- The opcode map gives no word the reason of the reserved field. -/
theorem decodeOpcode_ne_reservedBits (opc : BitVec 8) : decodeOpcode opc ≠ .error .reservedBits := by
  unfold decodeOpcode
  split_ifs <;> simp

theorem decode_eq_reservedBits_iff (w : CommandWord) : decode w = .error .reservedBits ↔ 256 ≤ w.toNat := by
  rw [← Nat.not_lt, ← rsvd_eq_zero_iff, decode]
  split_ifs with hr
  · simp [hr]
  · simp [not_not.mp hr, decodeOpcode_ne_reservedBits]

theorem exists_decode_eq_ok_iff (w : CommandWord) : (∃ i, decode w = .ok i) ↔ 1 ≤ w.toNat ∧ w.toNat ≤ 4 := by
  simp only [decode_eq_ok_iff, exists_eq_encode_iff]

/-- A word is rejected for its opcode exactly when it neither decodes nor is rejected for its reserved field. -/
theorem decode_eq_undefinedOpcode_iff (w : CommandWord) :
    decode w = .error .undefinedOpcode ↔ w.toNat = 0 ∨ (5 ≤ w.toNat ∧ w.toNat ≤ 255) := by
  have hother : decode w = .error .undefinedOpcode ↔ ¬ (decode w = .error .reservedBits) ∧ ¬ ∃ i, decode w = .ok i := by
    match decode w with
    | .ok i => simp
    | .error .reservedBits => simp
    | .error .undefinedOpcode => simp
  rw [hother, decode_eq_reservedBits_iff, exists_decode_eq_ok_iff]
  omega

theorem legal_encode (i : Instr) : (encode i).legal = true := by
  cases i <;> rfl

/-- The decoder rejects the words that are not in the table. -/
theorem exists_decode_eq_error_of_not_legal {w : CommandWord} (h : w.legal = false) : ∃ why, decode w = .error why := by
  match hd : decode w with
  | .error why => exact ⟨why, rfl⟩
  | .ok i =>
    rw [decode_eq_ok_iff.mp hd, legal_encode] at h
    cases h

/-- On a 32-bit word the table's numbering is the decoder's own. -/
theorem decodeTableWord_eq_some {w : Nat} {i : Instr} (h : decodeTableWord 32 w = some i) :
    w < 2 ^ 32 ∧ decode (BitVec.ofNat 32 w) = .ok i := by
  unfold decodeTableWord at h
  split_ifs at h with hw
  refine ⟨hw.2, ?_⟩
  match hd : decode (BitVec.ofNat 32 w) with
  | .ok j =>
    rw [hd] at h
    exact congrArg _ (Option.some.inj h)
  | .error why =>
    rw [hd] at h
    cases h

/-- Settles O1: the four words by evaluation, the decoder as the encoder's inverse. -/
theorem decodeAcceptsExactlyTheFourWords : Obligations.DecodeAcceptsExactlyTheFourWords :=
  ⟨encode_seed, encode_seedTime, encode_next, encode_status, fun _ _ => decode_eq_ok_iff⟩

/-- Settles O2, one lemma for each of the three ranges. -/
theorem decodeNamesTheRejectedField : Obligations.DecodeNamesTheRejectedField := fun w =>
  ⟨decode_eq_reservedBits_iff w, decode_eq_undefinedOpcode_iff w, exists_decode_eq_ok_iff w⟩

namespace Machine

/-- Settles O4: `withFetchWord` presents the word itself, since a word of the table is below `2^32`. -/
theorem stepRunsTheDecodedCommand : Obligations.StepRunsTheDecodedCommand := by
  refine ⟨fun s r t rest i hin hd => step_command hin hd, fun s w i h => ?_⟩
  obtain ⟨hw, hd⟩ := decodeTableWord_eq_some h
  have hword : decode (BitVec.ofNat 32 (w % 2 ^ 32)) = .ok i := by rwa [Nat.mod_eq_of_lt hw]
  exact step_command (State.present_inputs s _ _) hword

end Machine

end Sys2Proof
end

section
/-! What stands beside a command word (30_encoding.md R44; R42 of the draw, 60_exceptions.md R65 of an illegal word). -/

namespace Sys2Proof.Machine

open Sys2Proof

/-- Raising an error takes the request off the port unread. -/
theorem raise_present (err : Error) (s : State) (r r' : Request) (t t' : Data) :
    raise err (s.present r t) = raise err (s.present r' t') := rfl

/-- NEXT reads nothing of the request but its place on the port. -/
theorem exec_next_present (s : State) (r r' : Request) (t t' : Data) :
    exec .next (s.present r t) = exec .next (s.present r' t') := by
  have hin := s.present_inputs r t
  have hin' := s.present_inputs r' t'
  cases hs : s.engine.seeded with
  | false => rw [exec_next_unseeded hin hs, exec_next_unseeded hin' hs, raise_present]
  | true =>
    cases hmt : s.engine.mt with
    | none => rw [exec_next_unwritten hin hs hmt, exec_next_unwritten hin' hs hmt]
    | some mt => exact (exec_next_seeded hin hs hmt).trans (exec_next_seeded hin' hs hmt).symm

theorem exec_present_operand {i : Instr} (hi : i ≠ .seed) (s : State) (w : CommandWord) (v v' t : Data) :
    exec i (s.present ⟨w, v⟩ t) = exec i (s.present ⟨w, v'⟩ t) := by
  cases i with
  | seed => exact absurd rfl hi
  | seedTime => rfl
  | next => exact exec_next_present s _ _ t t
  | status => rfl

theorem exec_present_draw {i : Instr} (hi : i ≠ .seedTime) (s : State) (r : Request) (t t' : Data) :
    exec i (s.present r t) = exec i (s.present r t') := by
  cases i with
  | seed => rfl
  | seedTime => exact absurd rfl hi
  | next => exact exec_next_present s r r t t'
  | status => rfl

section Words
variable {w w' : CommandWord}

/-- A step on the word presented is its command's meaning. -/
theorem step_present_ok {i : Instr} (hd : decode w = .ok i) (s : State) (v t : Data) :
    step (s.present ⟨w, v⟩ t) = exec i (s.present ⟨w, v⟩ t) :=
  step_command (s.present_inputs ⟨w, v⟩ t) hd

/-- Two rejected words get the same answer, whatever stands beside them. -/
theorem step_present_illegal {why why' : Illegal} (hd : decode w = .error why) (hd' : decode w' = .error why') (s : State)
    (v v' t t' : Data) : step (s.present ⟨w, v⟩ t) = step (s.present ⟨w', v'⟩ t') := by
  rw [step_illegal (s.present_inputs ⟨w, v⟩ t) hd, step_illegal (s.present_inputs ⟨w', v'⟩ t') hd', raise_present]

theorem step_present_operand (hw : w ≠ encode .seed) (s : State) (v v' t : Data) :
    step (s.present ⟨w, v⟩ t) = step (s.present ⟨w, v'⟩ t) := by
  match hd : decode w with
  | .error why => exact step_present_illegal hd hd s v v' t t
  | .ok i =>
    have hi : i ≠ .seed := fun h => hw (h ▸ decode_eq_ok_iff.mp hd)
    rw [step_present_ok hd, step_present_ok hd, exec_present_operand hi]

theorem step_present_draw (hw : w ≠ encode .seedTime) (s : State) (v t t' : Data) :
    step (s.present ⟨w, v⟩ t) = step (s.present ⟨w, v⟩ t') := by
  match hd : decode w with
  | .error why => exact step_present_illegal hd hd s v v t t'
  | .ok i =>
    have hi : i ≠ .seedTime := fun h => hw (h ▸ decode_eq_ok_iff.mp hd)
    rw [step_present_ok hd, step_present_ok hd, exec_present_draw hi]

end Words

/-- Settles O21: a word decodes to a command whose meaning does not look there, or it is rejected. -/
theorem operandAndDrawAreIgnored : Obligations.OperandAndDrawAreIgnored := by
  refine ⟨fun s w v v' t hw => ?operand, fun s w v t t' hw => ?draw, fun s w w' v v' t t' h h' => ?illegal, fun v => ?seed⟩
  case operand => exact step_present_operand hw s v v' t
  case draw => exact step_present_draw hw s v t t'
  case illegal =>
    obtain ⟨why, hd⟩ := exists_decode_eq_error_of_not_legal h
    obtain ⟨why', hd'⟩ := exists_decode_eq_error_of_not_legal h'
    exact step_present_illegal hd hd' s v v' t t'
  case seed => exact ⟨rfl, rfl⟩

end Sys2Proof.Machine
end

section
/-! The lines of a command program as requests (30_encoding.md R48, R49). -/

namespace Sys2Proof.Machine

open Sys2Proof

/-- `NEXT ×k` assembles to what `k` NEXT lines in a row assemble to. -/
theorem assemble_nextTimes (k : Nat) : assemble [.nextTimes k] = assemble (List.replicate k .next) := by
  calc assemble [.nextTimes k]
      = List.replicate k (plainRequest .next) := by simp [assemble, Line.requests]
    _ = (List.replicate k [plainRequest .next]).flatten := List.flatten_replicate_singleton.symm
    _ = assemble (List.replicate k .next) := by rw [assemble, List.flatMap_replicate, Line.requests]

/-- Settles O38: each pseudo-command has the requests of its expansion in the table. -/
theorem pseudoCommandsExpand : Obligations.PseudoCommandsExpand := fun _ =>
  ⟨rfl, rfl, rfl, rfl⟩

/-- Settles O39: a literal within its limit is the value of the word it becomes. -/
theorem linesIssueTheirRequests : Obligations.LinesIssueTheirRequests := by
  refine ⟨fun imm himm => ?seed, rfl, rfl, rfl, fun imm himm => ?word, assemble_nextTimes⟩
  case seed => exact ⟨BitVec.ofNat 64 imm, Nat.mod_eq_of_lt himm, rfl⟩
  case word => exact ⟨BitVec.ofNat 32 imm, Nat.mod_eq_of_lt himm, rfl⟩

end Sys2Proof.Machine
end

section
/-! The reader of program text on decimal literals (30_encoding.md R48): words, digits, and the SEED line. -/

namespace Sys2Proof.Machine

open Sys2Proof

/-- Text without `;` has no comment to strip. -/
theorem stripComment_of_not_mem {text : List Char} (h : ';' ∉ text) : stripComment text = text := by
  rw [stripComment, List.takeWhile_eq_self_iff]
  intro ch hch
  simpa using ne_of_mem_of_not_mem hch h

/-- `rest` is empty or begins with a space, so a word before it ends there. -/
def StartsNoWord (rest : List Char) : Prop :=
  rest = [] ∨ ∃ more, rest = ' ' :: more

theorem tokens_space (rest : List Char) : tokens (' ' :: rest) = tokens rest := rfl

/-- The last character of a word. -/
theorem tokens_cons_of_startsNoWord {ch : Char} {rest : List Char} (hch : ch ≠ ' ') (hrest : StartsNoWord rest) :
    tokens (ch :: rest) = [ch] :: tokens rest := by
  rcases hrest with rfl | ⟨more, rfl⟩
  · simp [tokens, hch]
  · cases h : tokens more <;> simp [tokens, hch, h]

/-- A character before the rest of its word. -/
theorem tokens_cons_cons {ch next : Char} {rest tok : List Char} {toks : List (List Char)} (hch : ch ≠ ' ')
    (hnext : next ≠ ' ') (h : tokens (next :: rest) = tok :: toks) : tokens (ch :: next :: rest) = (ch :: tok) :: toks := by
  rw [tokens, if_neg hch, if_neg hnext]
  exact h

/-- Characters other than spaces, up to a space or the end, are one word. -/
theorem tokens_append {tok rest : List Char} (hne : tok ≠ []) (hsp : ' ' ∉ tok) (hrest : StartsNoWord rest) :
    tokens (tok ++ rest) = tok :: tokens rest := by
  induction tok with
  | nil => exact absurd rfl hne
  | cons ch more ih =>
    have hch : ch ≠ ' ' := (List.ne_of_not_mem_cons hsp).symm
    have hmore : ' ' ∉ more := List.not_mem_of_not_mem_cons hsp
    cases more with
    | nil => exact tokens_cons_of_startsNoWord hch hrest
    | cons next tail => exact tokens_cons_cons hch (List.ne_of_not_mem_cons hmore).symm (ih (List.cons_ne_nil _ _) hmore)

/-- A decimal digit has the value that the library reads it with. -/
theorem digit_of_isDigit {ch : Char} (h : ch.isDigit = true) : digit 10 ch = some (ch.toNat - '0'.toNat) := by
  have hrange := Char.isDigit_iff_toNat.mp h
  have hvalue : ch.toNat - '0'.toNat < 10 := by
    have : '9'.toNat = '0'.toNat + 9 := rfl
    omega
  simp only [digit, if_pos hrange, if_pos hvalue]

/-- Decimal digits are read as the library reads them. -/
theorem digits_of_isDigit {cs : List Char} (h : ∀ ch ∈ cs, ch.isDigit = true) (acc : Nat) :
    digits 10 acc cs = some (Nat.ofDigitChars 10 cs acc) := by
  induction cs generalizing acc with
  | nil => rfl
  | cons ch rest ih =>
    obtain ⟨hch, hrest⟩ := List.forall_mem_cons.mp h
    have hsep : ch ≠ '_' := by rintro rfl; exact absurd hch (by decide)
    rw [digits, if_neg hsep, digit_of_isDigit hch, Option.bind_some, ih hrest, Nat.ofDigitChars_cons, Nat.mul_comm]

/-- A literal of decimal digits alone is a decimal literal: neither `x` nor `_` is a digit. -/
theorem literal_of_isDigit {cs : List Char} (hne : cs ≠ []) (h : ∀ ch ∈ cs, ch.isDigit = true) :
    literal cs = some (Nat.ofDigitChars 10 cs 0) := by
  have hsep : '_' ∉ cs := fun hmem => absurd (h _ hmem) (by decide)
  have hx : 'x' ∉ cs := fun hmem => absurd (h _ hmem) (by decide)
  unfold literal
  split
  · simp at hx
  · rw [if_neg (List.ne_of_not_mem_cons hsep).symm, digits_of_isDigit h]
  · exact absurd rfl hne

/-- Reading back the decimal digits of a natural. -/
theorem literal_toDigits (n : Nat) : literal (Nat.toDigits 10 n) = some n := by
  rw [literal_of_isDigit Nat.toDigits_ne_nil fun _ => Nat.isDigit_of_mem_toDigits (by decide) (by decide),
    Nat.ofDigitChars_ten_toDigits]

/-- A character that is no digit does not stand in a decimal numeral. -/
theorem not_mem_toDigits {ch : Char} (h : ch.isDigit = false) (n : Nat) : ch ∉ Nat.toDigits 10 n := fun hmem =>
  Bool.false_ne_true (h.symm.trans (Nat.isDigit_of_mem_toDigits (by decide) (by decide) hmem))

/-- The words of a SEED line are the mnemonic and the numeral. -/
theorem tokens_seedLine (n : Nat) :
    tokens (['S', 'E', 'E', 'D', ' '] ++ Nat.toDigits 10 n) = [['S', 'E', 'E', 'D'], Nat.toDigits 10 n] := by
  calc tokens (['S', 'E', 'E', 'D'] ++ ' ' :: Nat.toDigits 10 n)
      = ['S', 'E', 'E', 'D'] :: tokens (' ' :: Nat.toDigits 10 n) := tokens_append (by simp) (by decide) (.inr ⟨_, rfl⟩)
    _ = ['S', 'E', 'E', 'D'] :: tokens (Nat.toDigits 10 n ++ []) := by rw [tokens_space, List.append_nil]
    _ = [['S', 'E', 'E', 'D'], Nat.toDigits 10 n] := by
      rw [tokens_append Nat.toDigits_ne_nil (not_mem_toDigits rfl n) (.inl rfl), tokens]

/-- Settles O40: the text has no comment, its two words are `SEED` and the numeral, and the numeral reads back as `n`. -/
theorem seedLineReadsItsLiteral : Obligations.SeedLineReadsItsLiteral := by
  intro n
  have hstrip : stripComment (['S', 'E', 'E', 'D', ' '] ++ Nat.toDigits 10 n) = ['S', 'E', 'E', 'D', ' '] ++ Nat.toDigits 10 n :=
    stripComment_of_not_mem (by simp [not_mem_toDigits (rfl : ';'.isDigit = false) n])
  have hline : lineOfTokens [['S', 'E', 'E', 'D'], Nat.toDigits 10 n] = some (.seed n) := by
    rw [lineOfTokens, literal_toDigits, Option.map_some]
  simp only [parseLine, hstrip, tokens_seedLine, hline, Option.bind_some, Line.wf, decide_eq_true_eq]

end Sys2Proof.Machine
end

section
/-! SEED and SEED_TIME as whole next states (40_seeding.md R53, R54). -/

namespace Sys2Proof.Machine

open Sys2Proof

/-- The seed word is the 64-bit value, or its low 32 bits (40_seeding.md R53, R54). -/
theorem seedWord_by_wordSize (v : Data) : seedWord .w64 v = v ∧ (seedWord .w32 v).toNat = v.toNat % 2 ^ 32 :=
  ⟨rfl, BitVec.extractLsb'_toNat 0 32 v⟩

/-- The engine INIT and `SEEDED <- 1` leave, field by field. -/
theorem Engine.seedFrom_eq {c : Config} (v : Data) (e : Engine c) :
    e.seedFrom v = ⟨some (initFile c.params (seedWord c.wordSize v)), BitVec.ofNat 10 c.wordSize.wordCount, true,
      e.illSeen, e.unsSeen⟩ := rfl

/-- A command's one response on the request it runs on, as a whole state. -/
theorem respond_setEngine {s : State} {x : Input} {rest : List Input} (h : s.inputs = x :: rest) (resp : Resp) (data : Data)
    (e : Engine s.config) :
    respond resp data (s.setEngine e) = ⟨s.config, e, rest, s.responses ++ [⟨resp, data⟩]⟩ := by
  rw [respond, State.setEngine_inputs, h]
  rfl

/-- Settles O5: SEED's equation, with the engine it leaves written out. -/
theorem seedFillsFromOperand : Obligations.SeedFillsFromOperand := by
  refine ⟨fun s r t rest hin => ⟨?meaning, fun hw => ?word⟩, seedWord_by_wordSize⟩
  case meaning => rw [exec_seed hin, respond_setEngine hin, Engine.seedFrom_eq]
  case word => exact step_command hin (decode_eq_ok_iff.mpr hw)

/-- Settles O6: SEED_TIME's equation, with the engine it leaves written out. -/
theorem seedTimeFillsFromTheDraw : Obligations.SeedTimeFillsFromTheDraw := by
  refine ⟨fun s r t rest hin => ⟨?meaning, fun hw => ?word⟩, seedWord_by_wordSize⟩
  case meaning => rw [exec_seedTime hin, respond_setEngine hin, Engine.seedFrom_eq]
  case word => exact step_command hin (decode_eq_ok_iff.mpr hw)

/-- Settles O7: both commands leave the engine seeded from `t`. -/
theorem seedTimeLeavesTheStateOfSeed : Obligations.SeedTimeLeavesTheStateOfSeed := by
  intro s w w' v t t' s₁ s₂ hseedTime hseed
  have hin := s.present_inputs ⟨w, v⟩ t
  have hin' := s.present_inputs ⟨w', t⟩ t'
  rw [exec_seedTime hin, respond_setEngine hin] at hseedTime
  rw [exec_seed hin', respond_setEngine hin'] at hseed
  cases hseedTime
  cases hseed
  exact ⟨s.engine.seedFrom t, _, _, rfl, rfl⟩

end Sys2Proof.Machine
end

section
/-! INIT's array word by word (40_seeding.md R50, R51). -/

namespace Sys2Proof.Machine

open Sys2Proof

variable {ws : WordSize} (p : MTParams ws)

/-- Each word INIT's loop writes is made from the one before it. -/
theorem seedWordsFrom_getElem?_succ {k j : Nat} (hj : j + 1 < k) (i : Nat) (q : Word ws) :
    (seedWordsFrom p k i q)[j + 1]? = (seedWordsFrom p k i q)[j]?.map (seedStep p (i + j + 1)) := by
  induction j generalizing k i q with
  | zero =>
    match k, hj with
    | k + 2, _ => rfl
  | succ j ih =>
    match k, hj with
    | k + 1, hj =>
      have htail := ih (Nat.lt_of_succ_lt_succ hj) (i + 1) (seedStep p (i + 1) q)
      rw [seedWordsFrom_succ, List.getElem?_cons_succ, List.getElem?_cons_succ, htail, Nat.add_right_comm i 1 j,
        Nat.add_assoc i j 1]

section Array
variable (seed : Word ws)

/-- A read of INIT's array, as an element of the loop's list. -/
theorem getElem?_seedWordsFrom {i : Nat} (hi : i < ws.wordCount) :
    (seedWordsFrom p ws.wordCount 0 seed)[i]? = some (readWord (initFile p seed) i) := by
  rw [← initFile_toList, readWord_of_lt _ hi, Vector.getElem?_toList, Vector.getElem?_eq_getElem hi]

theorem readWord_initFile_zero : readWord (initFile p seed) 0 = seed := by
  have h := getElem?_seedWordsFrom p seed ws.wordCount_pos
  obtain ⟨n, hn⟩ := Nat.exists_eq_succ_of_ne_zero ws.wordCount_pos.ne'
  rw [hn, seedWordsFrom_succ, List.getElem?_cons_zero] at h
  exact (Option.some.inj h).symm

/-- INIT's recurrence (40_seeding.md R50). -/
theorem readWord_initFile_succ {i : Nat} (hi : i + 1 < ws.wordCount) :
    readWord (initFile p seed) (i + 1) = seedStep p (i + 1) (readWord (initFile p seed) i) := by
  have h := seedWordsFrom_getElem?_succ p hi 0 seed
  rw [getElem?_seedWordsFrom p seed hi, getElem?_seedWordsFrom p seed (Nat.lt_of_succ_lt hi), Option.map_some,
    Nat.zero_add] at h
  exact Option.some.inj h

end Array

/-- Settles O27: the recurrence of INIT's loop, read off its array. -/
theorem initFollowsTheRecurrence : Obligations.InitFollowsTheRecurrence := by
  refine ⟨fun ws p seed => ⟨readWord_initFile_zero p seed, fun i hpos hi => ?word⟩, fun c e seed => rfl⟩
  case word =>
    obtain ⟨j, rfl⟩ := Nat.exists_eq_add_of_le' hpos
    exact readWord_initFile_succ p seed hi

/-- From a zero word the loop makes its index, whatever the multiplier. -/
theorem seedStep_zero (i : Nat) : seedStep p i 0 = BitVec.ofNat ws.bits i := by
  simp [seedStep]

theorem readWord_zeroFile (ws : WordSize) (i : Nat) : readWord (zeroFile ws) i = 0 := by
  simp [readWord, zeroFile]

/-- Settles O28: word 0 is the seed, and after seed 0 word 1 is its index. -/
theorem initIsNeverAllZero : Obligations.InitIsNeverAllZero := by
  intro ws p seed
  have hone : 0 + 1 < ws.wordCount := by cases ws <;> decide
  have hzero : seed = 0 → readWord (initFile p seed) 1 = 1 := by
    rintro rfl
    rw [readWord_initFile_succ p 0 hone, readWord_initFile_zero, seedStep_zero]
    rfl
  refine ⟨fun hseed => ?word0, hzero, fun hall => ?notAll⟩
  case word0 => rwa [readWord_initFile_zero]
  case notAll =>
    have hseed : seed = 0 := by rw [← readWord_initFile_zero p seed, hall, readWord_zeroFile]
    have h01 : (0 : Word ws) = 1 := by rw [← hzero hseed, hall, readWord_zeroFile]
    exact absurd h01 (by cases ws <;> decide)

end Sys2Proof.Machine
end

section
/-! After SEED the earlier state has no influence (40_seeding.md R52): two engines alike but for their sticky flags stay alike, and
answer alike, on any inputs without STATUS. -/

namespace Sys2Proof.Machine

open Sys2Proof

variable {c : Config}

/-- Two engines in one state but for the sticky flags, with SEEDED telling whether the word file holds values. -/
structure SeededAlike (e₁ e₂ : Engine c) : Prop where
  mt : e₁.mt = e₂.mt
  cursor : e₁.cursor = e₂.cursor
  seeded : e₁.seeded = e₂.seeded
  hasValues : e₁.seeded = e₁.mt.isSome

/-- `f` takes the two engines, on the same inputs, to engines alike, with the same inputs left and the same new responses, after
any earlier ones. -/
def GoOnAlike (f : State → Host.Outcome State Fault Refusal) (e₁ e₂ : Engine c) (ins : List Input) : Prop :=
  ∃ (e₁' e₂' : Engine c) (ins' : List Input) (new : List Response), SeededAlike e₁' e₂' ∧ ins' ⊆ ins ∧
    (∀ out, f ⟨c, e₁, ins, out⟩ = .next ⟨c, e₁', ins', out ++ new⟩) ∧
    ∀ out, f ⟨c, e₂, ins, out⟩ = .next ⟨c, e₂', ins', out ++ new⟩

/-- The engine a NEXT leaves that releases from the array `mt`. -/
def Engine.released (mt : WordFile c.wordSize) (e : Engine c) : Engine c :=
  { e with mt := some (nextOutput c mt e.cursor).mt, cursor := (nextOutput c mt e.cursor).cursor }

theorem seededAlike_seedFrom (e₁ e₂ : Engine c) (v : Data) : SeededAlike (e₁.seedFrom v) (e₂.seedFrom v) :=
  ⟨rfl, rfl, rfl, rfl⟩

theorem seededAlike_reset : SeededAlike (Engine.reset c) (Engine.reset c) :=
  ⟨rfl, rfl, rfl, rfl⟩

variable {e₁ e₂ : Engine c}

theorem SeededAlike.setSticky (h : SeededAlike e₁ e₂) (err : Error) :
    SeededAlike (e₁.setSticky err) (e₂.setSticky err) := by
  obtain ⟨hmt, hcursor, hseeded, hvalues⟩ := h
  exact ⟨by simpa, by simpa, by simpa, by simpa⟩

/-- A release from equal arrays at equal cursors leaves equal arrays and cursors. -/
theorem SeededAlike.released (h : SeededAlike e₁ e₂) (hs : e₁.seeded = true) (mt : WordFile c.wordSize) :
    SeededAlike (e₁.released mt) (e₂.released mt) := by
  obtain ⟨-, hcursor, hseeded, -⟩ := h
  exact ⟨by rw [Engine.released, hcursor, Engine.released], by rw [Engine.released, hcursor, Engine.released], hseeded, hs⟩

/-- SEED brings any two engines together. -/
theorem exec_seed_goOnAlike (e₁ e₂ : Engine c) (r : Request) (t : Data) (rest : List Input) :
    GoOnAlike (exec .seed) e₁ e₂ (.command r t :: rest) :=
  ⟨_, _, rest, [⟨.ok, 0#64⟩], seededAlike_seedFrom e₁ e₂ r.operand, List.subset_cons_self _ _, fun _ => exec_seed rfl,
    fun _ => exec_seed rfl⟩

theorem exec_seedTime_goOnAlike (e₁ e₂ : Engine c) (r : Request) (t : Data) (rest : List Input) :
    GoOnAlike (exec .seedTime) e₁ e₂ (.command r t :: rest) :=
  ⟨_, _, rest, [⟨.ok, t⟩], seededAlike_seedFrom e₁ e₂ t, List.subset_cons_self _ _, fun _ => exec_seedTime rfl,
    fun _ => exec_seedTime rfl⟩

/-- NEXT reads the array, the cursor and SEEDED alone. -/
theorem exec_next_goOnAlike (h : SeededAlike e₁ e₂) (r : Request) (t : Data) (rest : List Input) :
    GoOnAlike (exec .next) e₁ e₂ (.command r t :: rest) := by
  have hrest : rest ⊆ .command r t :: rest := List.subset_cons_self _ _
  cases hs : e₁.seeded with
  | false =>
    have hs₂ : e₂.seeded = false := h.seeded ▸ hs
    exact ⟨_, _, rest, [⟨.errUnseeded, 0#64⟩], h.setSticky .unseeded, hrest, fun _ => exec_next_unseeded rfl hs,
      fun _ => exec_next_unseeded rfl hs₂⟩
  | true =>
    obtain ⟨mt, hmt⟩ := Option.isSome_iff_exists.mp (h.hasValues ▸ hs)
    have hs₂ : e₂.seeded = true := h.seeded ▸ hs
    have hmt₂ : e₂.mt = some mt := h.mt ▸ hmt
    refine ⟨e₁.released mt, e₂.released mt, rest, [⟨.ok, (nextOutput c mt e₁.cursor).data⟩], h.released hs mt, hrest,
      fun _ => exec_next_seeded rfl hs hmt, ?_⟩
    rw [h.cursor]
    exact fun _ => exec_next_seeded rfl hs₂ hmt₂

/-- Every command but STATUS keeps engines alike that are alike. -/
theorem exec_goOnAlike (h : SeededAlike e₁ e₂) {i : Instr} (hi : i ≠ .status) (r : Request) (t : Data) (rest : List Input) :
    GoOnAlike (exec i) e₁ e₂ (.command r t :: rest) := by
  cases i with
  | seed => exact exec_seed_goOnAlike e₁ e₂ r t rest
  | seedTime => exact exec_seedTime_goOnAlike e₁ e₂ r t rest
  | next => exact exec_next_goOnAlike h r t rest
  | status => exact absurd rfl hi

/-- A step on a word that decodes goes on as its command does. -/
theorem step_goOnAlike_of_exec {r : Request} {t : Data} {rest : List Input} {i : Instr} (hd : decode r.cmd = .ok i)
    (h : GoOnAlike (exec i) e₁ e₂ (.command r t :: rest)) : GoOnAlike step e₁ e₂ (.command r t :: rest) := by
  have hstep (e : Engine c) (out : List Response) :
      step ⟨c, e, .command r t :: rest, out⟩ = exec i ⟨c, e, .command r t :: rest, out⟩ := step_command rfl hd
  simpa only [GoOnAlike, hstep] using h

theorem step_goOnAlike (h : SeededAlike e₁ e₂) {ins : List Input} (hins : ∀ x ∈ ins, Input.issues .status x = false) :
    GoOnAlike step e₁ e₂ ins := by
  match ins with
  | [] =>
    exact ⟨e₁, e₂, [], [], h, List.Subset.refl _, fun out => by rw [List.append_nil, step_idle rfl],
      fun out => by rw [List.append_nil, step_idle rfl]⟩
  | .reset :: rest =>
    have hreset (e : Engine c) (out : List Response) :
        step ⟨c, e, .reset :: rest, out⟩ = .next ⟨c, Engine.reset c, rest, out ++ []⟩ := by
      rw [List.append_nil, step_reset rfl]
      rfl
    exact ⟨_, _, rest, [], seededAlike_reset, List.subset_cons_self _ _, hreset e₁, hreset e₂⟩
  | .command r t :: rest =>
    match hd : decode r.cmd with
    | .error why =>
      exact ⟨_, _, rest, [⟨.errIllegal, 0#64⟩], h.setSticky .illegal, List.subset_cons_self _ _,
        fun _ => step_illegal rfl hd, fun _ => step_illegal rfl hd⟩
    | .ok i =>
      have hi : i ≠ .status := by
        rintro rfl
        have hstatus : Input.issues .status (.command r t) = true := beq_iff_eq.mpr (decode_eq_ok_iff.mp hd)
        exact Bool.false_ne_true ((hins _ List.mem_cons_self).symm.trans hstatus)
      exact step_goOnAlike_of_exec hd (exec_goOnAlike h hi r t rest)

/-- A step and a run after it go on alike when each does. -/
theorem run_succ_goOnAlike {k : Nat} {ins : List Input} (h : GoOnAlike step e₁ e₂ ins)
    (hrun : ∀ (e₁' e₂' : Engine c) (ins' : List Input), SeededAlike e₁' e₂' → ins' ⊆ ins →
      GoOnAlike (run k) e₁' e₂' ins') :
    GoOnAlike (run (k + 1)) e₁ e₂ ins := by
  obtain ⟨e₁', e₂', ins', new, halike, hsub, h₁, h₂⟩ := h
  obtain ⟨e₁'', e₂'', ins'', new', halike', hsub', h₁', h₂'⟩ := hrun e₁' e₂' ins' halike hsub
  exact ⟨e₁'', e₂'', ins'', new ++ new', halike', List.Subset.trans hsub' hsub,
    fun out => by rw [run_succ_of_next k (h₁ out), h₁', List.append_assoc],
    fun out => by rw [run_succ_of_next k (h₂ out), h₂', List.append_assoc]⟩

theorem run_goOnAlike (k : Nat) (h : SeededAlike e₁ e₂) {ins : List Input}
    (hins : ∀ x ∈ ins, Input.issues .status x = false) : GoOnAlike (run k) e₁ e₂ ins := by
  induction k generalizing e₁ e₂ ins with
  | zero =>
    exact ⟨e₁, e₂, ins, [], h, List.Subset.refl _, fun out => by rw [List.append_nil, run_zero],
      fun out => by rw [List.append_nil, run_zero]⟩
  | succ k ih =>
    exact run_succ_goOnAlike (step_goOnAlike h hins) fun _ _ _ halike hsub => ih halike fun x hx => hins x (hsub hx)

/-- Settles O36: SEED brings the two engines together, and without STATUS they stay so. -/
theorem seedErasesTheEarlierState : Obligations.SeedErasesTheEarlierState := by
  intro k c e₁ e₂ v t ins out₁ out₂ hins
  have hseed : GoOnAlike step e₁ e₂ (.command ⟨encode .seed, v⟩ t :: ins) :=
    step_goOnAlike_of_exec (decode_encode .seed) (exec_seed_goOnAlike e₁ e₂ ⟨encode .seed, v⟩ t ins)
  have hall : ∀ x ∈ .command ⟨encode .seed, v⟩ t :: ins, Input.issues .status x = false :=
    List.forall_mem_cons.mpr ⟨rfl, hins⟩
  obtain ⟨e₁', e₂', ins', new, halike, -, h₁, h₂⟩ :=
    run_succ_goOnAlike hseed fun _ _ _ halike hsub => run_goOnAlike k halike fun x hx => hall x (hsub hx)
  exact ⟨e₁', e₂', ins', new, h₁ out₁, h₂ out₂, halike.mt, halike.cursor, halike.seeded⟩

end Sys2Proof.Machine
end

section
/-! TWIST's array word by word (41_generation.md R55; 70_reset_and_hazards.md R80): each step reads old words above its own index
and new words below it. -/

namespace Sys2Proof.Machine

open Sys2Proof

/-- Every word but the first has one before it. -/
theorem one_lt_wordCount (ws : WordSize) : 1 < ws.wordCount := by
  cases ws <;> decide

variable {ws : WordSize} (p : MTParams ws) (mt : WordFile ws)

/-- Indices wrap at `N`. -/
theorem readWord_add_wordCount (i : Nat) : readWord mt (i + ws.wordCount) = readWord mt i := by
  simp [readWord]

/-- Steps `a … b-1` write the words `a … b-1` only. -/
theorem readWord_twistSteps_of_not_written {a b i : Nat} (hab : a ≤ b) (hb : b ≤ ws.wordCount) (hi : i < ws.wordCount)
    (hout : i < a ∨ b ≤ i) : readWord (twistSteps p b mt) i = readWord (twistSteps p a mt) i := by
  induction b, hab using Nat.le_induction with
  | base => rfl
  | succ b hab ih =>
    have hne : b % ws.wordCount ≠ i % ws.wordCount := by
      rw [Nat.mod_eq_of_lt hb, Nat.mod_eq_of_lt hi]
      omega
    rw [twistSteps_succ, readWord_twistStep_of_ne p _ hne, ih (Nat.le_of_succ_le hb) (by omega)]

/-- Before its own step a word is the old one. -/
theorem readWord_twistSteps_of_le {k i : Nat} (hk : k ≤ i) (hi : i < ws.wordCount) :
    readWord (twistSteps p k mt) i = readWord mt i :=
  readWord_twistSteps_of_not_written p mt (Nat.zero_le k) (hk.trans hi.le) hi (.inr hk)

/-- From its own step on a word is the one TWIST leaves. -/
theorem readWord_twistSteps_of_lt {k i : Nat} (hi : i < k) (hk : k ≤ ws.wordCount) :
    readWord (twistSteps p k mt) i = readWord (twist p mt) i :=
  (readWord_twistSteps_of_not_written p mt hk le_rfl (hi.trans_le hk) (.inl hi)).symm

/-- Word `i` of TWIST's array is what step `i` makes from the array as it finds it. -/
theorem readWord_twist {i : Nat} (hi : i < ws.wordCount) :
    readWord (twist p mt) i =
      readWord (twistSteps p i mt) (i + p.m) ^^^
        twistMix p (maskSplit p (readWord (twistSteps p i mt) i) (readWord (twistSteps p i mt) (i + 1))) := by
  rw [← readWord_twistSteps_of_lt p mt i.lt_succ_self hi, twistSteps_succ, readWord_twistStep_self]

/-- The offset word step `i` reads: an old one above `i`, a new one below. -/
theorem readWord_twistSteps_offset {i : Nat} (hm : p.m < ws.wordCount) (hi : i < ws.wordCount) :
    readWord (twistSteps p i mt) (i + p.m) =
      if i + p.m < ws.wordCount then readWord mt (i + p.m) else readWord (twist p mt) (i + p.m - ws.wordCount) := by
  split
  case isTrue hold => exact readWord_twistSteps_of_le p mt (Nat.le_add_right i p.m) hold
  case isFalse hnew =>
    have hwrap : i + p.m = i + p.m - ws.wordCount + ws.wordCount := by omega
    rw [hwrap, readWord_add_wordCount, Nat.add_sub_cancel, readWord_twistSteps_of_lt p mt (by omega) hi.le]

/-- The following word step `i` reads: an old one, but for the last step, which reads the new word 0. -/
theorem readWord_twistSteps_following {i : Nat} (hi : i < ws.wordCount) :
    readWord (twistSteps p i mt) (i + 1) =
      if i + 1 < ws.wordCount then readWord mt (i + 1) else readWord (twist p mt) 0 := by
  split
  case isTrue hold => exact readWord_twistSteps_of_le p mt i.le_succ hold
  case isFalse hlast =>
    have hN := one_lt_wordCount ws
    have hwrap : i + 1 = 0 + ws.wordCount := by omega
    rw [hwrap, readWord_add_wordCount, readWord_twistSteps_of_lt p mt (by omega) hi.le]

/-- Settles O29: word `i` is what step `i` writes, and its three reads are old or new words by their indices. -/
theorem twistReadsTheWordsItHasWritten : Obligations.TwistReadsTheWordsItHasWritten := by
  intro ws p mt i hm hi
  have hword := readWord_twist p mt hi
  rw [readWord_twistSteps_offset p mt hm hi, readWord_twistSteps_of_le p mt le_rfl hi,
    readWord_twistSteps_following p mt hi] at hword
  exact hword

end Sys2Proof.Machine
end

section
/-! TEMPER's passes bit by bit, and TEMPER as the four of them (41_generation.md R56). -/

namespace Sys2Proof.Machine

open Sys2Proof

section Passes
variable {w : Nat} (k : Nat) (m y : BitVec w) (i : Nat)

theorem getLsbD_passRight :
    (passRight k m y).getLsbD i = (y.getLsbD i ^^ (y.getLsbD (i + k) && m.getLsbD i)) := by
  rw [passRight, BitVec.getLsbD_xor, BitVec.getLsbD_and, BitVec.getLsbD_ushiftRight, Nat.add_comm k i]

theorem getLsbD_passLeft :
    (passLeft k m y).getLsbD i = (y.getLsbD i ^^ (decide (k ≤ i) && y.getLsbD (i - k) && m.getLsbD i)) := by
  rw [passLeft, BitVec.getLsbD_xor, BitVec.getLsbD_and, BitVec.getLsbD_shiftLeft]
  rcases Nat.lt_or_ge i w with hi | hi
  · rw [decide_eq_true hi, Bool.true_and, ← decide_not, decide_eq_decide.mpr Nat.not_lt, Bool.and_assoc]
  · rw [BitVec.getLsbD_of_ge m i hi, Bool.and_false, Bool.and_false]

/-- A pass to the right with no mask (R56's last). -/
theorem passRight_allOnes : passRight k (BitVec.allOnes w) y = y ^^^ (y >>> k) := by
  rw [passRight, BitVec.and_allOnes]

end Passes

/-- TEMPER as four passes: the last has a mask that masks nothing. -/
theorem temper_eq_passes {ws : WordSize} (p : MTParams ws) (y : Word ws) :
    temper p y = passRight p.l (BitVec.allOnes ws.bits) (passLeft p.t p.c (passLeft p.s p.b (passRight p.u p.d y))) := by
  rw [passRight_allOnes, temper]

theorem temper_zero {ws : WordSize} (p : MTParams ws) : temper p 0 = 0 := by
  simp [temper, passRight, passLeft]

/-- Settles O31: the words between the passes, each with its bits. -/
theorem temperBitByBit : Obligations.TemperBitByBit := by
  intro ws p y
  refine ⟨passRight p.u p.d y, passLeft p.s p.b (passRight p.u p.d y),
    passLeft p.t p.c (passLeft p.s p.b (passRight p.u p.d y)),
    fun i _ => getLsbD_passRight .., fun i _ => getLsbD_passLeft .., fun i _ => getLsbD_passLeft .., fun i hi => ?last,
    temper_zero p⟩
  case last =>
    rw [temper_eq_passes, getLsbD_passRight, BitVec.getLsbD_allOnes, decide_eq_true hi, Bool.and_true]

end Sys2Proof.Machine
end

section
/-! TWIST and TEMPER as linear maps over GF(2) (41_generation.md R61). -/

namespace Sys2Proof.Machine

open Sys2Proof

section Passes
variable {w : Nat} (k : Nat) (m y z : BitVec w)

/-- A mask takes the XOR of two words to the XOR of the masked words. -/
theorem xor_and_mask : (y ^^^ z) &&& m = (y &&& m) ^^^ (z &&& m) := by
  apply BitVec.eq_of_getLsbD_eq
  intro i _
  simp only [BitVec.getLsbD_and, BitVec.getLsbD_xor, Bool.and_xor_distrib_right]

theorem passRight_xor : passRight k m (y ^^^ z) = passRight k m y ^^^ passRight k m z := by
  simp only [passRight, BitVec.ushiftRight_xor_distrib, xor_and_mask]
  ac_rfl

theorem passLeft_xor : passLeft k m (y ^^^ z) = passLeft k m y ^^^ passLeft k m z := by
  simp only [passLeft, BitVec.shiftLeft_xor_distrib, xor_and_mask]
  ac_rfl

end Passes

variable {ws : WordSize} (p : MTParams ws)

theorem temper_xor (y z : Word ws) : temper p (y ^^^ z) = temper p y ^^^ temper p z := by
  simp only [temper_eq_passes, passRight_xor, passLeft_xor]

/-- The masks split a word: the bits below R come from the one word, the others from the other. -/
theorem getLsbD_maskSplit (hi lo : Word ws) {i : Nat} (hbit : i < ws.bits) :
    (maskSplit p hi lo).getLsbD i = if i < p.r then lo.getLsbD i else hi.getLsbD i := by
  rw [maskSplit, BitVec.getLsbD_or, BitVec.getLsbD_and, BitVec.getLsbD_and, p.getLsbD_upperMask, p.getLsbD_lowerMask,
    decide_eq_true hbit]
  split
  case isTrue hlow => simp [hlow, Nat.not_le.mpr hlow]
  case isFalse hhigh => simp [hhigh, Nat.not_lt.mp hhigh]

theorem maskSplit_xor (hi lo hi' lo' : Word ws) :
    maskSplit p (hi ^^^ hi') (lo ^^^ lo') = maskSplit p hi lo ^^^ maskSplit p hi' lo' := by
  apply BitVec.eq_of_getLsbD_eq
  intro i hbit
  simp only [BitVec.getLsbD_xor, getLsbD_maskSplit p _ _ hbit]
  split <;> rfl

/-- XORing `A` in by bit 0 commutes with XOR: where both words have the bit, the two `A`s cancel. -/
theorem twistMix_xor (x x' : Word ws) : twistMix p (x ^^^ x') = twistMix p x ^^^ twistMix p x' := by
  simp only [twistMix, BitVec.getLsbD_xor, BitVec.ushiftRight_xor_distrib]
  cases x.getLsbD 0 <;> cases x'.getLsbD 0
  case false.false => rfl
  case false.true => exact BitVec.xor_assoc ..
  case true.false =>
    change ((x >>> 1) ^^^ (x' >>> 1)) ^^^ p.a = ((x >>> 1) ^^^ p.a) ^^^ (x' >>> 1)
    ac_rfl
  case true.true =>
    calc (x >>> 1) ^^^ (x' >>> 1)
      _ = ((x >>> 1) ^^^ (x' >>> 1)) ^^^ (p.a ^^^ p.a) := by rw [BitVec.xor_self, BitVec.xor_zero]
      _ = ((x >>> 1) ^^^ p.a) ^^^ ((x' >>> 1) ^^^ p.a) := by ac_rfl

section Arrays
variable (a b : WordFile ws)

theorem readWord_xorFile (i : Nat) : readWord (xorFile a b) i = readWord a i ^^^ readWord b i := by
  simp only [readWord, xorFile, Vector.getElem_zipWith]

theorem writeWord_xorFile (i : Nat) (u v : Word ws) :
    writeWord (xorFile a b) i (u ^^^ v) = xorFile (writeWord a i u) (writeWord b i v) := by
  apply wordFile_ext
  intro j _
  simp only [readWord_writeWord, readWord_xorFile]
  split <;> rfl

theorem xorFile_self : xorFile a a = zeroFile ws := by
  apply wordFile_ext
  intro i _
  rw [readWord_xorFile, readWord_zeroFile, BitVec.xor_self]
  rfl

theorem twistStep_xorFile (i : Nat) : twistStep p i (xorFile a b) = xorFile (twistStep p i a) (twistStep p i b) := by
  simp only [twistStep, readWord_xorFile, maskSplit_xor, twistMix_xor, ← writeWord_xorFile]
  congr 1
  ac_rfl

theorem twistSteps_xorFile (k : Nat) : twistSteps p k (xorFile a b) = xorFile (twistSteps p k a) (twistSteps p k b) := by
  induction k with
  | zero => rfl
  | succ k ih => rw [twistSteps_succ, ih, twistStep_xorFile, ← twistSteps_succ, ← twistSteps_succ]

theorem twist_xorFile : twist p (xorFile a b) = xorFile (twist p a) (twist p b) :=
  twistSteps_xorFile p a b ws.wordCount

end Arrays

theorem twist_zeroFile : twist p (zeroFile ws) = zeroFile ws := by
  rw [← xorFile_self (zeroFile ws), twist_xorFile, xorFile_self, xorFile_self]

/-- Settles O32: every part of a step of TWIST and every pass of TEMPER commutes with XOR; INIT(0) is not zero by O28. -/
theorem twistAndTemperAreLinear : Obligations.TwistAndTemperAreLinear := by
  intro ws p
  obtain ⟨-, -, hinit⟩ := initIsNeverAllZero ws p 0
  exact ⟨twist_zeroFile p, twist_xorFile p, temper_xor p, hinit⟩

end Sys2Proof.Machine
end

section
/-! Each pass with a shift of at least 1 is a bijection, and so is TEMPER (41_generation.md R62). -/

namespace Sys2Proof.Machine

open Sys2Proof

section Passes
variable {w k : Nat} (m : BitVec w)

/-- From the top bit down: bit `i` of `y` is XORed with a bit above it, which is 0. -/
theorem eq_zero_of_passRight_eq_zero (hk : 1 ≤ k) {y : BitVec w} (h : passRight k m y = 0#w) : y = 0#w := by
  have hbit : ∀ d i, w ≤ i + d → y.getLsbD i = false := by
    intro d
    induction d with
    | zero => exact fun i hi => y.getLsbD_of_ge i hi
    | succ d ih =>
      intro i hi
      have hpass := getLsbD_passRight k m y i
      rw [h, ih (i + k) (by omega)] at hpass
      simpa using hpass.symm
  exact BitVec.eq_of_getLsbD_eq fun i _ => by rw [hbit w i (Nat.le_add_left w i), BitVec.getLsbD_zero]

/-- From bit 0 up: bit `i` of `y` is XORed with a bit below it, which is 0. -/
theorem eq_zero_of_passLeft_eq_zero (hk : 1 ≤ k) {y : BitVec w} (h : passLeft k m y = 0#w) : y = 0#w := by
  apply BitVec.eq_of_getLsbD_eq
  intro i
  induction i using Nat.strong_induction_on with
  | h i ih =>
    intro hi
    have hpass := getLsbD_passLeft k m y i
    rw [h] at hpass
    rcases Nat.lt_or_ge i k with hlow | hhigh
    · simpa [Nat.not_le.mpr hlow] using hpass.symm
    · simpa [ih (i - k) (by omega) (by omega)] using hpass.symm

/-- A map of words that commutes with XOR and takes only 0 to 0 is a bijection. -/
theorem bijective_of_xor_of_eq_zero {f : BitVec w → BitVec w} (hxor : ∀ y z, f (y ^^^ z) = f y ^^^ f z)
    (hzero : ∀ y, f y = 0#w → y = 0#w) : Function.Bijective f := by
  apply Finite.injective_iff_bijective.mp
  intro y z hyz
  apply BitVec.xor_eq_zero_iff.mp
  apply hzero
  rw [hxor, hyz, BitVec.xor_self]

theorem passRight_bijective (hk : 1 ≤ k) : Function.Bijective (passRight k m) :=
  bijective_of_xor_of_eq_zero (passRight_xor k m) fun _ => eq_zero_of_passRight_eq_zero m hk

theorem passLeft_bijective (hk : 1 ≤ k) : Function.Bijective (passLeft k m) :=
  bijective_of_xor_of_eq_zero (passLeft_xor k m) fun _ => eq_zero_of_passLeft_eq_zero m hk

end Passes

/-- Settles O33: TEMPER is its four passes, one after the other. -/
theorem temperIsABijection : Obligations.TemperIsABijection := by
  refine ⟨fun w k m hk => ⟨passRight_bijective m hk, passLeft_bijective m hk⟩, fun ws p hu hs ht hl => ?temper⟩
  case temper =>
    have hpasses : temper p =
        passRight p.l (BitVec.allOnes ws.bits) ∘ passLeft p.t p.c ∘ passLeft p.s p.b ∘ passRight p.u p.d :=
      funext (temper_eq_passes p)
    rw [hpasses]
    exact (passRight_bijective _ hl).comp
      ((passLeft_bijective _ ht).comp ((passLeft_bijective _ hs).comp (passRight_bijective _ hu)))

end Sys2Proof.Machine
end

section
/-! NEXT and STATUS as whole next states (41_generation.md R57, R58, R60). -/

namespace Sys2Proof.Machine

open Sys2Proof

/-- Adding to the cursor as a number and then taking 10 bits is adding to it modulo 2^10. -/
theorem ofNat_toNat_add (cursor : Cursor) (k : Nat) :
    BitVec.ofNat 10 (cursor.toNat + k) = cursor + BitVec.ofNat 10 k := by
  rw [BitVec.ofNat_add, BitVec.ofNat_toNat, BitVec.setWidth_eq]

/-- A NEXT on a seeded engine answers the output's DATA and leaves its array and cursor. -/
theorem exec_next_output {c : Config} {e : Engine c} {mt : WordFile c.wordSize} (hs : e.seeded = true)
    (hmt : e.mt = some mt) (r : Request) (t : Data) (rest : List Input) (out : List Response) :
    exec .next ⟨c, e, .command r t :: rest, out⟩ =
      .next ⟨c, e.released mt, rest, out ++ [⟨.ok, (nextOutput c mt e.cursor).data⟩]⟩ :=
  exec_next_seeded rfl hs hmt

/-- Settles O8: the cases of the cursor are those of the output. -/
theorem nextReleasesAndTempers : Obligations.NextReleasesAndTempers := by
  refine ⟨fun s r t rest hin => ⟨fun hw => ?word, fun hs => ?unseeded⟩, ?w64, ?w32⟩
  case word => exact step_command hin (decode_eq_ok_iff.mpr hw)
  case unseeded =>
    rw [exec_next_unseeded hin hs, raise, respond_setEngine hin]
    rfl
  case w64 =>
    intro p e mt r t rest out hs hmt
    rw [exec_next_output hs hmt, Engine.released]
    rcases Nat.lt_or_ge e.cursor.toNat 312 with h | h
    · rw [nextOutput_w64_fresh p mt h]
      simp only [if_pos h, ofNat_toNat_add]
    · rw [nextOutput_w64_exhausted p mt h]
      simp only [if_neg (Nat.not_lt.mpr h)]
  case w32 =>
    intro p order e mt r t rest out hs hmt
    rw [exec_next_output hs hmt, Engine.released]
    rcases Nat.lt_trichotomy e.cursor.toNat 623 with h | h | h
    · have hle : e.cursor.toNat ≤ 622 := Nat.le_of_lt_succ h
      rw [nextOutput_w32_fresh p order mt hle]
      simp only [if_pos hle, ofNat_toNat_add]
      cases order <;> rfl
    · rw [nextOutput_w32_straddling p order mt h]
      simp only [h]
      cases order <;> rfl
    · have hgt : ¬ e.cursor.toNat ≤ 622 := by omega
      rw [nextOutput_w32_exhausted p order mt h]
      simp only [if_neg hgt, if_neg h.ne']
      cases order <;> rfl

/-- The STATUS word right after reset: `CURSOR = N`, WSEL, and no flag. -/
theorem statusWord_reset (c : Config) :
    statusWord (Engine.reset c) = if c.wordSize = .w64 then 0x0000000001380100#64 else 0x0000000002700000#64 := by
  simp only [statusWord, Engine.reset]
  cases c.wordSize <;> decide

/-- Settles O9: the word is that of R23, and right after reset its fields are those of R30. -/
theorem statusReportsAndWritesNothing : Obligations.StatusReportsAndWritesNothing := by
  refine ⟨fun s r t rest hin => ⟨?meaning, fun hw => ?word⟩, fun p => statusWord_reset (.w64 p),
    fun p order => statusWord_reset (.w32 p order)⟩
  case meaning =>
    have hwsel : BitVec.ofBool (wsel s.config.wordSize) = if s.config.wordSize = .w64 then 1#1 else 0#1 := by
      cases s.config.wordSize <;> rfl
    rw [exec_status hin, respond, hin, statusWord, hwsel]
    rfl
  case word => exact step_command hin (decode_eq_ok_iff.mpr hw)

section EvenCursor
variable {c : Config} {e e' : Engine c}

/-- At W = 32 a command keeps an even cursor even. -/
theorem ExecEngine.cursor_even {v t : Data} {i : Instr} (he : ExecEngine e v t i e') (hw : c.wordSize = .w32)
    (h : e.cursor.toNat % 2 = 0) : e'.cursor.toNat % 2 = 0 := by
  cases he with
  | seed => rw [Engine.seedFrom_cursor, toNat_ofNat_wordCount, WordSize.wordCount_even]
  | seedTime => rw [Engine.seedFrom_cursor, toNat_ofNat_wordCount, WordSize.wordCount_even]
  | unseeded hs => rwa [Engine.setSticky_cursor]
  | released mt hs hmt => exact nextOutput_cursor_even mt hw h
  | status => exact h

/-- At W = 32 a step keeps an even cursor even. -/
theorem StepEngine.cursor_even {ins : List Input} (hstep : StepEngine e ins e') (hw : c.wordSize = .w32)
    (h : e.cursor.toNat % 2 = 0) : e'.cursor.toNat % 2 = 0 := by
  cases hstep with
  | idle => exact h
  | reset => rw [Engine.reset, toNat_ofNat_wordCount, WordSize.wordCount_even]
  | illegal r t rest hill => rwa [Engine.setSticky_cursor]
  | command r t rest i _ hcmd he => exact he.cursor_even hw h

end EvenCursor

/-- Settles O34: an even cursor below `N` has its neighbour below `N` too, so the pair never straddles a twist. -/
theorem evenCursorAtWordSize32 : Obligations.EvenCursorAtWordSize32 := by
  refine ⟨fun s s' hw heven h => ?step, fun p order e mt r t rest out hs hmt heven => ?pair⟩
  case step =>
    obtain ⟨e', hs', hstep⟩ := stepEngine_of_step h
    rw [hs']
    exact hstep.cursor_even hw heven
  case pair =>
    rw [exec_next_output hs hmt, Engine.released]
    rcases Nat.lt_or_ge e.cursor.toNat 624 with h | h
    · have hlast : e.cursor.toNat ≤ 622 := by omega
      refine ⟨mt, e.cursor.toNat, heven, by omega, .inl ⟨h, rfl, rfl⟩, ?_⟩
      rw [nextOutput_w32_fresh p order mt hlast, ofNat_toNat_add]
    · refine ⟨twist p mt, 0, rfl, by decide, .inr ⟨h, rfl, rfl⟩, ?_⟩
      rw [nextOutput_w32_exhausted p order mt h]

end Sys2Proof.Machine
end

section
/-! The closed form of the output stream at W = 64 (41_generation.md R59). -/

namespace Sys2Proof.Machine

open Sys2Proof

/-- How many twists `n` NEXTs from a used-up block take, `⌈n/312⌉`. -/
def twistsOf (n : Nat) : Nat :=
  (n + 311) / 312

/-- A step on the word of a command is that command's meaning. -/
theorem step_of_cmd_eq {c : Config} {e : Engine c} {r : Request} {t : Data} {rest : List Input} {out : List Response}
    {i : Instr} (hr : r.cmd = encode i) :
    step ⟨c, e, .command r t :: rest, out⟩ = exec i ⟨c, e, .command r t :: rest, out⟩ :=
  step_command rfl (decode_eq_ok_iff.mpr hr)

section Stream
variable {p : MTParams .w64} {v : Data} {n : Nat} {e : Engine (.w64 p)}

/-- The engine after `SEED v` and `n` NEXTs, its sticky flags left open: the array is INIT's after `⌈n/312⌉` twists, and `n`
words of the blocks the twists made have been released. -/
structure InStream (p : MTParams .w64) (v : Data) (n : Nat) (e : Engine (.w64 p)) : Prop where
  seeded : e.seeded = true
  mt : e.mt = some ((twist p)^[twistsOf n] (initFile p v))
  cursor : e.cursor.toNat + 312 * twistsOf n = n + 312

/-- The `(n+1)`-th output (41_generation.md R59). -/
def streamData (p : MTParams .w64) (v : Data) (n : Nat) : Data :=
  temper p (readWord ((twist p)^[n / 312 + 1] (initFile p v)) (n % 312))

theorem inStream_seedFrom (e : Engine (.w64 p)) (v : Data) : InStream p v 0 (e.seedFrom v) :=
  ⟨rfl, rfl, rfl⟩

/-- After one NEXT more the array has had `n/312 + 1` twists. -/
theorem twistsOf_succ (n : Nat) : twistsOf (n + 1) = n / 312 + 1 := by
  rw [twistsOf, Nat.add_assoc, Nat.add_div_right n (by decide)]

/-- The next NEXT finds the array and the cursor of the closed form: as they are within a block, and after a twist where a block
ends. -/
theorem InStream.nextOutput (h : InStream p v n e) :
    nextOutput (.w64 p) ((twist p)^[twistsOf n] (initFile p v)) e.cursor =
      ⟨streamData p v n, (twist p)^[n / 312 + 1] (initFile p v), BitVec.ofNat 10 (n % 312 + 1)⟩ := by
  have hcursor := h.cursor
  have hceil : twistsOf n = (n + 311) / 312 := rfl
  rw [streamData]
  rcases Nat.lt_or_ge e.cursor.toNat 312 with hin | hend
  · have htwists : twistsOf n = n / 312 + 1 := by omega
    have hword : n % 312 = e.cursor.toNat := by omega
    rw [nextOutput_w64_fresh p _ hin, htwists, hword, ofNat_toNat_add]
  · have htwists : twistsOf n = n / 312 := by omega
    have hword : n % 312 = 0 := by omega
    rw [nextOutput_w64_exhausted p _ hend, htwists, hword, Function.iterate_succ_apply']

/-- A NEXT in the stream answers the stream's next output. -/
theorem InStream.step_next (h : InStream p v n e) {r : Request} (hr : r.cmd = encode .next) (t : Data) (rest : List Input)
    (out : List Response) :
    ∃ e', InStream p v (n + 1) e' ∧ e'.cursor.toNat = n % 312 + 1 ∧
      step ⟨.w64 p, e, .command r t :: rest, out⟩ = .next ⟨.w64 p, e', rest, out ++ [⟨.ok, streamData p v n⟩]⟩ := by
  have hword : (BitVec.ofNat 10 (n % 312 + 1)).toNat = n % 312 + 1 := by
    rw [BitVec.toNat_ofNat]
    omega
  refine ⟨{ e with
    mt := some ((twist p)^[n / 312 + 1] (initFile p v))
    cursor := BitVec.ofNat 10 (n % 312 + 1) }, ⟨h.seeded, ?mt, ?cursor⟩, hword, ?step⟩
  case mt => rw [twistsOf_succ]
  case cursor =>
    rw [twistsOf_succ, hword]
    omega
  case step =>
    rw [step_of_cmd_eq hr, exec_next_output h.seeded h.mt, Engine.released, h.nextOutput]

/-- An input that issues a command is a request with its word. -/
theorem exists_command_of_issues {i : Instr} {x : Input} (h : Input.issues i x = true) :
    ∃ r t, x = .command r t ∧ r.cmd = encode i := by
  cases x with
  | command r t => exact ⟨r, t, rfl, eq_of_beq h⟩
  | reset => cases h

/-- A NEXT or a STATUS keeps the engine in the stream, and a NEXT counts. -/
theorem InStream.step (h : InStream p v n e) {x : Input} (hx : Input.issues .next x = true ∨ Input.issues .status x = true)
    (rest : List Input) (out : List Response) :
    ∃ e' out', InStream p v (n + if Input.issues .next x then 1 else 0) e' ∧
      step ⟨.w64 p, e, x :: rest, out⟩ = .next ⟨.w64 p, e', rest, out'⟩ := by
  rcases hx with hx | hx
  · rw [if_pos hx]
    obtain ⟨r, t, rfl, hr⟩ := exists_command_of_issues hx
    obtain ⟨e', he', -, hstep⟩ := h.step_next hr t rest out
    exact ⟨e', _, he', hstep⟩
  · obtain ⟨r, t, rfl, hr⟩ := exists_command_of_issues hx
    have hnext : ¬ Input.issues .next (.command r t) = true := by simp [Input.issues, hr]
    rw [if_neg hnext]
    exact ⟨e, _, h, (step_of_cmd_eq hr).trans (exec_status rfl)⟩

/-- NEXTs and STATUSes keep the engine in the stream, and the run goes on from there. -/
theorem InStream.run_append (h : InStream p v n e) {mid : List Input}
    (hmid : ∀ x ∈ mid, Input.issues .next x = true ∨ Input.issues .status x = true) (k : Nat) (rest : List Input)
    (out : List Response) :
    ∃ e' out', InStream p v (n + mid.countP (Input.issues .next)) e' ∧
      run (mid.length + k) ⟨.w64 p, e, mid ++ rest, out⟩ = run k ⟨.w64 p, e', rest, out'⟩ := by
  induction mid generalizing n e out with
  | nil => exact ⟨e, out, h, by rw [List.length_nil, Nat.zero_add, List.nil_append]⟩
  | cons x mid ih =>
    obtain ⟨hx, hmid⟩ := List.forall_mem_cons.mp hmid
    obtain ⟨e₁, out₁, h₁, hstep⟩ := h.step hx (mid ++ rest) out
    obtain ⟨e', out', h', hrun⟩ := ih h₁ hmid out₁
    refine ⟨e', out', ?_, ?_⟩
    · rwa [List.countP_cons, Nat.add_comm (mid.countP _), ← Nat.add_assoc]
    · rw [List.length_cons, Nat.add_right_comm, List.cons_append, run_succ_of_next _ hstep, hrun]

end Stream

/-- Settles O37: SEED enters the stream, the requests between stay in it, and the last NEXT answers its next output. -/
theorem closedFormOfTheStream : Obligations.ClosedFormOfTheStream := by
  intro p e v t op t' mid rest out hmid
  have hseed (ins : List Input) : step ⟨.w64 p, e, .command ⟨encode .seed, v⟩ t :: ins, out⟩ =
      .next ⟨.w64 p, e.seedFrom v, ins, out ++ [⟨.ok, 0#64⟩]⟩ := by
    rw [step_of_cmd_eq (i := .seed) rfl, exec_seed rfl, respond_setEngine rfl]
  obtain ⟨e₁, before, h₁, hrun⟩ :=
    (inStream_seedFrom e v).run_append hmid 1 (.command ⟨encode .next, op⟩ t' :: rest) (out ++ [⟨.ok, 0#64⟩])
  rw [Nat.zero_add] at h₁
  obtain ⟨e', -, hcursor, hlast⟩ := h₁.step_next (r := ⟨encode .next, op⟩) rfl t' rest before
  refine ⟨e', before, ?_, hcursor⟩
  rw [run_succ_of_next _ (hseed _), hrun, run_succ_of_next 0 hlast, run_zero]
  rfl

end Sys2Proof.Machine
end

section
/-! Errors and the response of every request (60_exceptions.md R63 to R67), and the idle engine (R77). -/

namespace Sys2Proof

/-- A command word has its reserved field zero and one of the four opcodes, so any other word is rejected. -/
theorem exists_decode_eq_error_of_fields {w : CommandWord}
    (h : w.rsvd ≠ 0#24 ∨ w.opc ∉ [0x01#8, 0x02#8, 0x03#8, 0x04#8]) : ∃ why, decode w = .error why := by
  match hd : decode w with
  | .error why => exact ⟨why, rfl⟩
  | .ok i =>
    obtain rfl := decode_eq_ok_iff.mp hd
    rw [rsvd_encode, opc_encode] at h
    rcases h with hrsvd | hopc
    · exact absurd rfl hrsvd
    · cases i <;> simp [Instr.opcode] at hopc

namespace Machine

section Raise
variable {s : State} {r : Request} {t : Data} {rest : List Input} (h : s.inputs = .command r t :: rest)
include h

/-- An error raised on the request that stands on the port, as a whole state. -/
theorem raise_of_command (err : Error) :
    raise err s = ⟨s.config, s.engine.setSticky err, rest, s.responses ++ [⟨err.resp, 0#64⟩]⟩ :=
  respond_setEngine h err.resp 0#64 (s.engine.setSticky err)

/-- A step on the NEXT word while SEEDED is 0. -/
theorem step_next_unseeded (hw : r.cmd = encode .next) (hs : s.engine.seeded = false) : step s = .next (raise .unseeded s) := by
  rw [step_command h (decode_eq_ok_iff.mpr hw), exec_next_unseeded h hs]

end Raise

/-- RESP of a command that runs, by SEEDED: only NEXT looks at it (R66). -/
def instrResp (seeded : Bool) : Instr → Resp
  | .next => if seeded then .ok else .errUnseeded
  | .seed | .seedTime | .status => .ok

/-- RESP of a request, by its word first and then by SEEDED (R67). -/
def requestResp (seeded : Bool) (w : CommandWord) : Resp :=
  match decode w with
  | .error _ => .errIllegal
  | .ok i => instrResp seeded i

theorem requestResp_of_error {seeded : Bool} {w : CommandWord} {why : Illegal} (hd : decode w = .error why) :
    requestResp seeded w = .errIllegal := by
  rw [requestResp, hd]

theorem requestResp_of_ok {seeded : Bool} {w : CommandWord} {i : Instr} (hd : decode w = .ok i) :
    requestResp seeded w = instrResp seeded i := by
  rw [requestResp, hd]

theorem instrResp_ne_errIllegal (seeded : Bool) (i : Instr) : instrResp seeded i ≠ .errIllegal := by
  cases i <;> cases seeded <;> decide

theorem instrResp_eq_errUnseeded_iff {seeded : Bool} {i : Instr} :
    instrResp seeded i = .errUnseeded ↔ i = .next ∧ seeded = false := by
  cases i <;> cases seeded <;> decide

theorem requestResp_eq_errIllegal_iff {seeded : Bool} {w : CommandWord} :
    requestResp seeded w = .errIllegal ↔ ¬ (1 ≤ w.toNat ∧ w.toNat ≤ 4) := by
  rw [← exists_decode_eq_ok_iff]
  match hd : decode w with
  | .error why => simp [requestResp_of_error hd]
  | .ok i => simp [requestResp_of_ok hd, instrResp_ne_errIllegal]

theorem requestResp_eq_errUnseeded_iff {seeded : Bool} {w : CommandWord} :
    requestResp seeded w = .errUnseeded ↔ w = encode .next ∧ seeded = false := by
  rw [← decode_eq_ok_iff]
  match hd : decode w with
  | .error why => simp [requestResp_of_error hd]
  | .ok i => simp [requestResp_of_ok hd, instrResp_eq_errUnseeded_iff]

theorem Resp.code_ne_reserved (resp : Resp) : resp.code ≠ 0b11#2 := by
  cases resp <;> decide

/-- The code of a request's response: the word is checked before SEEDED (R67). -/
theorem requestResp_code (seeded : Bool) (w : CommandWord) :
    (requestResp seeded w).code = if ¬ (1 ≤ w.toNat ∧ w.toNat ≤ 4) then 0b01#2
      else if w = encode .next ∧ seeded = false then 0b10#2 else 0b00#2 := by
  simp only [← requestResp_eq_errIllegal_iff (seeded := seeded), ← requestResp_eq_errUnseeded_iff]
  cases requestResp seeded w <;> rfl

section Responses
variable {s s' : State}

/-- `s'` has one response more than `s`, with that RESP, and DATA = 0 when it is an error (R64). -/
def RespondsWith (s s' : State) (resp : Resp) : Prop :=
  ∃ d, s'.responses = s.responses ++ [⟨resp, d⟩] ∧ (resp ≠ .ok → d = 0#64)

theorem respondsWith_raise (err : Error) : RespondsWith s (raise err s) err.resp :=
  ⟨0#64, rfl, fun _ => rfl⟩

theorem respondsWith_respond_ok (e : Engine s.config) (d : Data) : RespondsWith s (respond .ok d (s.setEngine e)) .ok :=
  ⟨d, rfl, fun h => absurd rfl h⟩

theorem exec_respondsWith {i : Instr} (h : exec i s = .next s') : RespondsWith s s' (instrResp s.engine.seeded i) := by
  cases i with
  | seed =>
    obtain ⟨r, t, rest, -, rfl⟩ := execSeed_cases h
    exact respondsWith_respond_ok _ _
  | seedTime =>
    obtain ⟨r, t, rest, -, rfl⟩ := execSeedTime_cases h
    exact respondsWith_respond_ok _ _
  | next =>
    obtain ⟨r, t, rest, -, ⟨hs, rfl⟩ | ⟨mt, hs, -, rfl⟩⟩ := execNext_cases h
    · rw [hs]
      exact respondsWith_raise .unseeded
    · rw [hs]
      exact respondsWith_respond_ok _ _
  | status =>
    obtain ⟨r, t, rest, -, rfl⟩ := execStatus_cases h
    exact respondsWith_respond_ok s.engine _

/-- A step on a request gives the response of its word and SEEDED. -/
theorem step_respondsWith {r : Request} {t : Data} {rest : List Input} (hin : s.inputs = .command r t :: rest)
    (h : step s = .next s') : RespondsWith s s' (requestResp s.engine.seeded r.cmd) := by
  match hd : decode r.cmd with
  | .error why =>
    rw [step_illegal hin hd] at h
    cases h
    rw [requestResp_of_error hd]
    exact respondsWith_raise .illegal
  | .ok i =>
    rw [step_command hin hd] at h
    rw [requestResp_of_ok hd]
    exact exec_respondsWith h

/-- A step that adds a response was on a request. -/
theorem hasRequest_of_step_responds (h : step s = .next s') {resp : Response}
    (hout : s'.responses = s.responses ++ [resp]) : s.HasRequest := by
  match hin : s.inputs with
  | [] =>
    rw [step_idle hin] at h
    cases h
    simp at hout
  | .reset :: rest =>
    rw [step_reset hin] at h
    cases h
    simp at hout
  | .command r t :: rest => exact ⟨r, t, rest, hin⟩

end Responses

/-- Settles O11: each error is the case of `setSticky` and of `Error.resp` that the statement writes out. -/
theorem raiseIsPrecise : Obligations.RaiseIsPrecise := fun _ =>
  ⟨rfl, rfl⟩

/-- Settles O12: the decoder rejects the word, and the error raised on it sets ILL_SEEN. -/
theorem illegalWordSetsOnlyIllSeen : Obligations.IllegalWordSetsOnlyIllSeen := by
  intro s r t rest hin hw
  obtain ⟨why, hd⟩ := exists_decode_eq_error_of_fields hw
  rw [step_illegal hin hd, raise_of_command hin]
  rfl

/-- Settles O13: NEXT raises the error while SEEDED is 0, and the response of every other request is another. -/
theorem unseededErrorIsForNextOnly : Obligations.UnseededErrorIsForNextOnly := by
  refine ⟨fun s r t rest hin hw hs => ?raised, fun s s' d h hout => ?only⟩
  case raised =>
    rw [step_next_unseeded hin hw hs, raise_of_command hin]
    rfl
  case only =>
    obtain ⟨r, t, rest, hin⟩ := hasRequest_of_step_responds h hout
    obtain ⟨d', hout', hzero⟩ := step_respondsWith hin h
    obtain ⟨hresp, rfl⟩ : .errUnseeded = requestResp s.engine.seeded r.cmd ∧ d = d' := by simpa [hout] using hout'
    obtain ⟨hw, hs⟩ := requestResp_eq_errUnseeded_iff.mp hresp.symm
    exact ⟨r, t, rest, hin, hw, hs, hzero (by simp [← hresp])⟩

/-- Settles O14: a valid state goes on, and the code is that of the request's response. -/
theorem responseCodeByPriority : Obligations.ResponseCodeByPriority := by
  refine ⟨⟨rfl, rfl, rfl⟩, fun s r t rest hvalid hin => ?_⟩
  obtain ⟨s', h, -⟩ := stepGoesOnAndKeepsValidity s hvalid
  obtain ⟨d, hout, -⟩ := step_respondsWith hin h
  obtain ⟨hrest, -⟩ := answered_of_step h
  rw [hin, List.drop_one, List.tail_cons] at hrest
  exact ⟨s', d, _, h, hout, hrest, Resp.code_ne_reserved _, requestResp_code s.engine.seeded r.cmd⟩

/-- Settles O23: the idle step of the model. -/
theorem idleEngineHoldsItsState : Obligations.IdleEngineHoldsItsState := fun _ =>
  step_idle

end Machine

end Sys2Proof
end

section
/-! The whole state the reset signal leaves (70_reset_and_hazards.md R78; 10_state.md R30). -/

namespace Sys2Proof.Machine

open Sys2Proof

/-- The reset signal takes itself off the inputs, resets the engine, and leaves the configuration and the host's responses. -/
theorem applyReset_of_reset {s : State} {rest : List Input} (h : s.inputs = .reset :: rest) :
    applyReset s = ⟨s.config, Engine.reset s.config, rest, s.responses⟩ := by
  rw [applyReset, h, List.tail_cons]

/-- Settles O22: the step on the reset signal is `applyReset`, and the fields of `Engine.reset` are those of R30; in this block's
configuration `N` is 312. -/
theorem resetRestoresEveryField : Obligations.ResetRestoresEveryField := by
  refine ⟨fun s rest hin => ?signal, ?block⟩
  case signal => rw [step_reset hin, applyReset_of_reset hin, Engine.reset]
  case block => rfl

end Sys2Proof.Machine
end

section
/-! The decoder on words written out bit by bit (30_encoding.md R43, R45; 95_test_vectors.md section 6, E2 and E4 to E6). -/

namespace Sys2Proof

/-- Settles O3: the four command words are the encodings of R45, and the ranges of R43 place each rejected word. -/
theorem decodeOfWrittenOutWords : Obligations.DecodeOfWrittenOutWords :=
  ⟨decode_eq_ok_iff.mpr encode_seed.symm, decode_eq_ok_iff.mpr encode_seedTime.symm, decode_eq_ok_iff.mpr encode_next.symm,
    decode_eq_ok_iff.mpr encode_status.symm, (decode_eq_undefinedOpcode_iff _).mpr (by decide),
    (decode_eq_undefinedOpcode_iff _).mpr (by decide), (decode_eq_reservedBits_iff _).mpr (by decide),
    (decode_eq_reservedBits_iff _).mpr (by decide)⟩

end Sys2Proof
end
